-- ==== Sys2Proof/Word.lean ====
section
/-! DEFINITION. Bytes, words, and the two small tables the spec indexes by channel: three tone
channels (10_state.md R22) and four channels, interrupt sources or page registers (R24, R27, R30). -/

namespace Sys2Proof

/-- One byte, the unit of every register access (R68) and byte stream (R60). -/
abbrev Byte := BitVec 8

/-- A 16-bit value: one side of a stereo sample (R205), a `be16` field (R373). -/
abbrev Half := BitVec 16

/-- A 32-bit value: a `be32` field (R373), a chunk tag, a checksum (R110). -/
abbrev Word := BitVec 32

/-- A byte sequence: a payload, a demo log, a snapshot (R13). -/
abbrev Bytes := List Byte

/-- One value per tone channel 0, 1, 2. -/
structure Tri (α : Type) where
  c0 : α
  c1 : α
  c2 : α
deriving DecidableEq, Repr

/-- One value per channel 0..3 (or per interrupt source, or per page register). -/
structure Quad (α : Type) where
  c0 : α
  c1 : α
  c2 : α
  c3 : α
deriving DecidableEq, Repr

def Tri.get {α : Type} (t : Tri α) (c : Fin 3) : α :=
  match c with
  | 0 => t.c0
  | 1 => t.c1
  | 2 => t.c2

def Tri.set {α : Type} (t : Tri α) (c : Fin 3) (v : α) : Tri α :=
  match c with
  | 0 => { t with c0 := v }
  | 1 => { t with c1 := v }
  | 2 => { t with c2 := v }

/-- The same value for every tone channel. -/
def Tri.all {α : Type} (v : α) : Tri α := ⟨v, v, v⟩

def Quad.get {α : Type} (t : Quad α) (c : Fin 4) : α :=
  match c with
  | 0 => t.c0
  | 1 => t.c1
  | 2 => t.c2
  | 3 => t.c3

def Quad.set {α : Type} (t : Quad α) (c : Fin 4) (v : α) : Quad α :=
  match c with
  | 0 => { t with c0 := v }
  | 1 => { t with c1 := v }
  | 2 => { t with c2 := v }
  | 3 => { t with c3 := v }

/-- The same value for every channel. -/
def Quad.all {α : Type} (v : α) : Quad α := ⟨v, v, v, v⟩

/-- The table that a function of the channel gives. -/
def Quad.ofFn {α : Type} (f : Fin 4 → α) : Quad α := ⟨f 0, f 1, f 2, f 3⟩

end Sys2Proof
end

