-- ==== Sys2Proof/Config.lean ====
section
/-! DEFINITION. What the hardware fixes, what an implementation fixes, and the free values.
Constants the source makes normative are plain definitions; the parameters of 00_scope.md R9 that
a model "takes as arguments" are the fields of `Params`, held by the state and changed by no step
(R425); the free values are opaque, so that no proof can learn one. -/

namespace Sys2Proof

namespace Config

/-- `DAC_SHIFT` (R9): "2-bit-shifted". -/
def dacShift : Nat := 2

/-- `P_SLOT_PX` (R9): output pixels per scanline tag; R220 fixes 16 in every pixel formula. -/
def slotPx : Nat := 16

/-- `P_MC_PER_CHIP` (R9, R316): machine cycles per chip cycle and per demo tick. -/
def mcPerChip : Nat := 2

/-- `P_VARINT_MAX` (R9, R333): the longest delta-time varint in bytes. -/
def varintMax : Nat := 9

/-- The largest delta a nine-byte varint holds, at which `rec_ticks` saturates (R345). -/
def deltaMax : Nat := 2 ^ 63 - 1

/-- `TAG_CHIP`, "CHIP" read big-endian (R111). -/
def tagChip : Word := 0x43484950#32
/-- `TAG_DEMO` (R111). -/
def tagDemo : Word := 0x44454D4F#32
/-- `TAG_MACH` (R111). -/
def tagMach : Word := 0x4D414348#32
/-- `TAG_END` (R111). -/
def tagEnd : Word := 0#32

/-- The length of the chip chunk's payload (R373). -/
def chipChunkLen : Nat := 111

/-- The smallest legal `P_SNAPSHOT_SIZE` (R10, R381). -/
def minSnapshot : Nat := 135

/-- The byte of a pixel that nothing has written (R45: "all 0"; R220: the blank value). -/
def blankByte : Byte := 0#8

/-- FREE VALUE. The outcomes the spec leaves to a draw (R79, R272, R76), one per index; applied to the
state's counter `draws`. Nothing constrains it (logs 9 to 12). -/
opaque draw : Nat → Bool

/-- FREE VALUE. How many milliseconds a waiting `requestFrame` waits before the next event or wake
(R272: "the model treats the outcome of a wait as a nondeterministic choice"; log 11). -/
opaque waitMs : Nat → Nat

/-- FREE VALUE. `P_PALETTE` (R9: "OPEN function") where no table is given: the host pixel of a raw byte (log 41). -/
opaque palette : Byte → Nat

end Config

/-- Every fault of the block (60_exceptions.md R391). "The codes are names for a model's error type". -/
inductive FaultCode where
  | regWriteIgnored | regReadSentinel | scanTagUnknown | scanPayloadShort | scanOverWidth
  | lineIndexRange | cmdQueueFull | cmdAfterShutdown
  | badSize | versionMismatch | truncated | badChecksum | badEnd | trailingData | chunkLength
  | selectorMismatch | duplicateChunk | missingChip
  | unknownType | badKeyEvent | demoTruncated | varintTooLong | badVersion | noDemoChunk
  | snapshotTooLarge
  | resourceFault
deriving DecidableEq, Repr

/-- The code column of R391. -/
def FaultCode.code : FaultCode → Byte
  | .regWriteIgnored => 0x01 | .regReadSentinel => 0x02 | .scanTagUnknown => 0x03
  | .scanPayloadShort => 0x04 | .scanOverWidth => 0x05 | .lineIndexRange => 0x06
  | .cmdQueueFull => 0x07 | .cmdAfterShutdown => 0x08
  | .badSize => 0x10 | .versionMismatch => 0x11 | .truncated => 0x12 | .badChecksum => 0x13
  | .badEnd => 0x14 | .trailingData => 0x15 | .chunkLength => 0x16 | .selectorMismatch => 0x17
  | .duplicateChunk => 0x18 | .missingChip => 0x19
  | .unknownType => 0x20 | .badKeyEvent => 0x21 | .demoTruncated => 0x22 | .varintTooLong => 0x23
  | .badVersion => 0x24 | .noDemoChunk => 0x25 | .snapshotTooLarge => 0x26
  | .resourceFault => 0x30

/-- The class column of R391. -/
def FaultCode.faultClass (f : FaultCode) : Nat :=
  if f.code.toNat < 0x10 then 1 else if f.code.toNat < 0x30 then 2 else 3

/-- `P_TAPS(n)` (R9): the feedback tap of the n-bit polynomial counter. -/
structure Taps where
  t4 : Nat := 3
  t5 : Nat := 3
  t7 : Nat := 6
  t9 : Nat := 5
  t11 : Nat := 9
  t15 : Nat := 14
  t17 : Nat := 14
deriving DecidableEq, Repr

/-- The parameters of 00_scope.md R9 with their defaults (log 6). The reloads are 32-bit, as R10 asks;
`portBase` is `P_PORT_BASE` (log 33), `machineHzArg` a `P_MACHINE_HZ` other than R9's (log 35), and `palette` is
`P_PALETTE` as the table of its 256 host pixels (log 41). -/
structure Params where
  chipHz : Nat := 250000
  fixOscReload : Word := 3#32
  sndReload1k : Word := 124#32
  sndReload50 : Word := 2499#32
  oneHzReload : Word := 124999#32
  taps : Taps := {}
  portBase : Byte := 0xA0#8
  sentinel : Byte := 0xFF#8
  outW : Nat := 768
  fieldLines : Nat := 288
  slots : Nat := 312
  vsyncMin : Nat := 2
  vsyncMax : Nat := 8
  oddLo : Nat := 20
  oddHi : Nat := 39
  interlaceHold : Nat := 4
  borderLines : Nat := 5
  halfFrame : Bool := false
  palette : Option (Vector Nat 256) := none
  machineHzArg : Option Nat := none
  frameTimeoutMs : Nat := 20
  evqFields : Option Nat := none
  cmdqCap : Nat := 256
  demoVersion : Word := 1#32
  snapshotVersion : Word := 1#32
  snapshotSize : Nat := 262144
deriving DecidableEq, Repr

/-- `P_MACHINE_HZ`. DESIGN CHOICE (log 35): R9 derives it as `P_MC_PER_CHIP * P_CHIP_HZ`, 92 D41 calls it OPEN and
93 U26 a parameter; an argument of its own, which where it is absent takes R9's value. -/
def Params.machineHz (p : Params) : Nat := p.machineHzArg.getD (Config.mcPerChip * p.chipHz)

/-- `FB_H` (R45). -/
def Params.fbH (p : Params) : Nat := if p.halfFrame then p.fieldLines else 2 * p.fieldLines

/-- The constraints of R10; a configuration that breaks one is refused. -/
def Params.valid (p : Params) : Bool :=
  decide (p.fieldLines ≤ p.slots) && decide (p.borderLines ≤ p.fieldLines) &&
  decide (p.vsyncMin < p.vsyncMax) && decide (1 ≤ p.vsyncMin) &&
  decide (p.oddLo ≤ p.oddHi) && decide (1 ≤ p.interlaceHold) &&
  decide (1 ≤ p.outW) && decide (1 ≤ Config.slotPx) && decide (1 ≤ p.cmdqCap) &&
  decide (Config.minSnapshot ≤ p.snapshotSize)

end Sys2Proof
end

