-- ==== Sys2Proof/Syntax.lean ====
section
/-! DEFINITION. The instructions: one constructor per row of spec/opcode_table.json (rows that share a
mnemonic and a rule are one constructor with the address or tag byte as an operand; log 32). -/

namespace Sys2Proof

/-- The seven formats of 30_encoding.md R90. -/
inductive Format where
  | regWrite | regRead | scanlineTag | demoRecord | snapshotChunk | command | interface
deriving DecidableEq, Repr

/-- A command of the command queue (R112). "A model's command type has exactly the constructors of
rule R112" (R118); a key code of 128 or above cannot be built. -/
inductive Command where
  | reset
  | keyDown (k : BitVec 7)
  | keyUp (k : BitVec 7)
  | setVolume (v : Half)
  | tape (op : Byte)
  | mouseDelta (dx dy : Half)
  | setPaused (b : Bool)
  | demoRecordStart
  | demoRecordStop
  | demoPlayStart (blob : Bytes)
  | demoPlayStop
deriving DecidableEq, Repr

/-- A call that the out-of-scope CPU and video chip may make in `env_step` (44_sync_commands.md R317). -/
inductive EnvCall where
  | writeRegister (addr value : Byte)
  | readRegister (addr : Byte)
  | setInt1State (s : Bool)
  | setInt2State (s : Bool)
  | setTapeInput (s : Bool)
  | setTapeFeedback (s : Bool)
  | submitScanline (i : Nat) (payload : Bytes)
  | notifyFieldSync (level : Bool) (slot : Nat)
deriving DecidableEq, Repr

/-- The instructions of the block, in the order of spec/opcode_table.json. -/
inductive Instr where
  -- reg_write (R131 to R142)
  | wrFrqLo0 (v : Byte)
  | wrFrqLo1 (v : Byte)
  | wrFrqLo2 (v : Byte)
  | wrToneCtl0 (v : Byte)
  | wrToneCtl1 (v : Byte)
  | wrToneCtl2 (v : Byte)
  | wrNoiseCtl (v : Byte)
  | wrSysCtl (v : Byte)
  | wrVolL (c : Fin 4) (v : Byte)
  | wrVolR (c : Fin 4) (v : Byte)
  | wrPage (k : Fin 4) (v : Byte)
  | wrIntCtl (v : Byte)
  | wrKbdRow (v : Byte)
  | wrB6 (v : Byte)
  | wrReserved (off : BitVec 5) (v : Byte)
  | wrUnmapped (addr v : Byte)
  -- reg_read (R143 to R149)
  | rdWo (off : BitVec 4)
  | rdPage (k : Fin 4)
  | rdIntStat
  | rdKbdCol
  | rdTape
  | rdReserved (off : BitVec 5)
  | rdUnmapped (addr : Byte)
  -- scanline_tag (R221 to R229)
  | blank
  | fill1 (c0 : Byte)
  | fill2 (c0 c1 : Byte)
  | fill4 (c0 c1 c2 c3 : Byte)
  | fill8 (c0 c1 c2 c3 c4 c5 c6 c7 : Byte)
  | bmp8 (c0 c1 bits : Byte)
  | bmp16 (c0a c1a bitsA c0b c1b bitsB : Byte)
  | unknownTag (tag : Byte)
  -- demo_record (R337 to R340): the delta, then the event
  | demoEnd (delta : BitVec 63) (payload : Bytes)
  | demoKeyDown (delta : BitVec 63) (payload : Bytes)
  | demoKeyUp (delta : BitVec 63) (payload : Bytes)
  | demoUnknown (delta : BitVec 63) (type : Byte) (payload : Bytes)
  -- snapshot_chunk (R373 to R380)
  | chunkChip (payload : Bytes) (crc : Word)
  | chunkDemo (payload : Bytes) (crc : Word)
  | chunkMach (payload : Bytes) (crc : Word)
  | chunkEnd (n : Word) (trailing : Bytes)
  | chunkUnknown (tag : Word) (payload : Bytes) (crc : Word)
  -- command (R299 to R309)
  | cmdReset
  | cmdKeyDown (k : BitVec 7)
  | cmdKeyUp (k : BitVec 7)
  | cmdSetVolume (v : Half)
  | cmdTape (op : Byte)
  | cmdMouseDelta (dx dy : Half)
  | cmdSetPaused (b : Bool)
  | cmdDemoRecordStart
  | cmdDemoRecordStop
  | cmdDemoPlayStart (blob : Bytes)
  | cmdDemoPlayStop
  -- interface (R113)
  | advanceOneCycle
  | writeRegister (addr value : Byte)
  | readRegister (addr : Byte)
  | setInt1State (s : Bool)
  | setInt2State (s : Bool)
  | setTapeInput (s : Bool)
  | setTapeFeedback (s : Bool)
  | submitScanline (i : Nat) (payload : Bytes)
  | notifyFieldSync (level : Bool) (slot : Nat)
  | requestFrame
  | requestAutodetect
  | setViewport (x1 y1 x2 y2 : Nat)
  | enqueue (c : Command)
  | runFor (budgetUs : Nat) (env : List (List EnvCall))
  | lock (timeoutMs : Nat)
  | unlock
  | requestShutdown
  | saveSnapshot
  | loadSnapshot (blob : Bytes)
  | demoBlob
deriving DecidableEq, Repr

/-- The format a row of spec/opcode_table.json names for the instruction. -/
def Instr.format : Instr → Format
  | .wrFrqLo0 _ | .wrFrqLo1 _ | .wrFrqLo2 _ | .wrToneCtl0 _ | .wrToneCtl1 _ | .wrToneCtl2 _
  | .wrNoiseCtl _ | .wrSysCtl _ | .wrVolL _ _ | .wrVolR _ _ | .wrPage _ _ | .wrIntCtl _
  | .wrKbdRow _ | .wrB6 _ | .wrReserved _ _ | .wrUnmapped _ _ => .regWrite
  | .rdWo _ | .rdPage _ | .rdIntStat | .rdKbdCol | .rdTape | .rdReserved _ | .rdUnmapped _ => .regRead
  | .blank | .fill1 _ | .fill2 _ _ | .fill4 _ _ _ _ | .fill8 _ _ _ _ _ _ _ _ | .bmp8 _ _ _
  | .bmp16 _ _ _ _ _ _ | .unknownTag _ => .scanlineTag
  | .demoEnd _ _ | .demoKeyDown _ _ | .demoKeyUp _ _ | .demoUnknown _ _ _ => .demoRecord
  | .chunkChip _ _ | .chunkDemo _ _ | .chunkMach _ _ | .chunkEnd _ _ | .chunkUnknown _ _ _ => .snapshotChunk
  | .cmdReset | .cmdKeyDown _ | .cmdKeyUp _ | .cmdSetVolume _ | .cmdTape _ | .cmdMouseDelta _ _
  | .cmdSetPaused _ | .cmdDemoRecordStart | .cmdDemoRecordStop | .cmdDemoPlayStart _
  | .cmdDemoPlayStop => .command
  | .advanceOneCycle | .writeRegister _ _ | .readRegister _ | .setInt1State _ | .setInt2State _
  | .setTapeInput _ | .setTapeFeedback _ | .submitScanline _ _ | .notifyFieldSync _ _ | .requestFrame
  | .requestAutodetect | .setViewport _ _ _ _ | .enqueue _ | .runFor _ _ | .lock _ | .unlock
  | .requestShutdown | .saveSnapshot | .loadSnapshot _ | .demoBlob => .interface

/-- The instruction that carries out a command (R293). -/
def Command.toInstr : Command → Instr
  | .reset => .cmdReset
  | .keyDown k => .cmdKeyDown k
  | .keyUp k => .cmdKeyUp k
  | .setVolume v => .cmdSetVolume v
  | .tape op => .cmdTape op
  | .mouseDelta dx dy => .cmdMouseDelta dx dy
  | .setPaused b => .cmdSetPaused b
  | .demoRecordStart => .cmdDemoRecordStart
  | .demoRecordStop => .cmdDemoRecordStop
  | .demoPlayStart blob => .cmdDemoPlayStart blob
  | .demoPlayStop => .cmdDemoPlayStop

end Sys2Proof
end

