-- ==== Sys2Proof/WellFormed.lean ====
section
/-! DEFINITION. Which instructions have an encoding: the operand ranges that the types leave wider than
the tables of 30_encoding.md. -/

namespace Sys2Proof

/-- An address the chip does not decode: its window is the 32 addresses from `P_PORT_BASE` on (R92). -/
def unmappedAddr (p : Params) (a : Byte) : Bool := decide (0x20 ≤ (a - p.portBase).toNat)

/-- The check, one arm for each constructor whose operands can be out of range: reserved offsets are
0x17 to 0x1F (R141, R148), unmapped addresses lie outside the window, 0xA0 to 0xBF (R142, R149), unknown tags are
0x07 to 0xFF (R229), unknown event types 0x03 to 0xFF (R340), an event's payload has at most 255 bytes
(R107), a chunk's payload fewer than 2^32 (R110), and an unknown chunk's tag is none of the four
known ones (R111). -/
def Instr.wf (par : Params) : Instr → Bool
  | .wrReserved off _ => decide (0x17 ≤ off.toNat)
  | .wrUnmapped a _ => unmappedAddr par a
  | .rdReserved off => decide (0x17 ≤ off.toNat)
  | .rdUnmapped a => unmappedAddr par a
  | .unknownTag t => decide (0x07 ≤ t.toNat)
  | .demoEnd _ p => decide (p.length < 256)
  | .demoKeyDown _ p => decide (p.length < 256)
  | .demoKeyUp _ p => decide (p.length < 256)
  | .demoUnknown _ t p => decide (0x03 ≤ t.toNat) && decide (p.length < 256)
  | .chunkChip p _ => decide (p.length < 2 ^ 32)
  | .chunkDemo p _ => decide (p.length < 2 ^ 32)
  | .chunkMach p _ => decide (p.length < 2 ^ 32)
  | .chunkUnknown t p _ =>
    decide (p.length < 2 ^ 32) && t != Config.tagChip && t != Config.tagDemo && t != Config.tagMach &&
      t != Config.tagEnd
  | .wrFrqLo0 _ | .wrFrqLo1 _ | .wrFrqLo2 _ | .wrToneCtl0 _ | .wrToneCtl1 _ | .wrToneCtl2 _
  | .wrNoiseCtl _ | .wrSysCtl _ | .wrVolL _ _ | .wrVolR _ _ | .wrPage _ _ | .wrIntCtl _
  | .wrKbdRow _ | .wrB6 _ | .rdWo _ | .rdPage _ | .rdIntStat | .rdKbdCol | .rdTape
  | .blank | .fill1 _ | .fill2 _ _ | .fill4 _ _ _ _ | .fill8 _ _ _ _ _ _ _ _ | .bmp8 _ _ _
  | .bmp16 _ _ _ _ _ _ | .chunkEnd _ _
  | .cmdReset | .cmdKeyDown _ | .cmdKeyUp _ | .cmdSetVolume _ | .cmdTape _ | .cmdMouseDelta _ _
  | .cmdSetPaused _ | .cmdDemoRecordStart | .cmdDemoRecordStop | .cmdDemoPlayStart _ | .cmdDemoPlayStop
  | .advanceOneCycle | .writeRegister _ _ | .readRegister _ | .setInt1State _ | .setInt2State _
  | .setTapeInput _ | .setTapeFeedback _ | .submitScanline _ _ | .notifyFieldSync _ _ | .requestFrame
  | .requestAutodetect | .setViewport _ _ _ _ | .enqueue _ | .runFor _ _ | .lock _ | .unlock
  | .requestShutdown | .saveSnapshot | .loadSnapshot _ | .demoBlob => true

/-- The instruction has an encoding in a block with parameters `p`. -/
abbrev WellFormed (p : Params) (i : Instr) : Prop := i.wf p = true

end Sys2Proof
end

