-- ==== Sys2Proof/Decode.lean ====
section
/-! DEFINITION. Reading and writing the items of the seven formats of 30_encoding.md R90: the byte-order
helpers, the decoder of each format (total, refusing what is no item of the format), the encoder, and
the host's `decodeTableWord`.

The first five formats are the spec's. The spec gives commands and interface calls no bytes (R112,
R113: "a tagged value, not bytes", "a call, not bytes"); their layout here is the model's transport
(DESIGN CHOICE, log 2): the code of R112, or the position in the list of R113, then the operands. -/

namespace Sys2Proof

/-! ## Byte order (R63): most significant byte first -/

def be16 (v : Half) : Bytes := [v.extractLsb' 8 8, v.extractLsb' 0 8]

def be32 (v : Word) : Bytes :=
  [v.extractLsb' 24 8, v.extractLsb' 16 8, v.extractLsb' 8 8, v.extractLsb' 0 8]

/-- The number two big-endian bytes make. -/
def ofBE16 (a b : Byte) : Half := a ++ b

/-- The number four big-endian bytes make. -/
def ofBE32 (a b c d : Byte) : Word := (a ++ b) ++ (c ++ d)

/-! ## Reading from the front of a byte sequence (R13, R67): `none` where it ends first -/

def takeByte : Bytes → Option (Byte × Bytes)
  | [] => none
  | b :: t => some (b, t)

def takeBE16 : Bytes → Option (Half × Bytes)
  | a :: b :: t => some (ofBE16 a b, t)
  | _ => none

def takeBE32 : Bytes → Option (Word × Bytes)
  | a :: b :: c :: d :: t => some (ofBE32 a b c d, t)
  | _ => none

def takeBytes (n : Nat) (bs : Bytes) : Option (Bytes × Bytes) :=
  if n ≤ bs.length then some (bs.take n, bs.drop n) else none

/-- A Boolean is stored as one bit: false is 0 and true is 1 (R11). -/
def takeBool : Bytes → Option (Bool × Bytes)
  | [] => none
  | b :: t => if b = 0#8 then some (false, t) else if b = 1#8 then some (true, t) else none

def putBool (b : Bool) : Bytes := [if b then 1#8 else 0#8]

/-! ## Varints (R64, R106): seven bits a byte, bit 7 set when more bytes follow, most significant first -/

/-- The continuation bytes of `d` in front of `acc`. -/
def varintGroups : Nat → Nat → Bytes → Bytes
  | 0, _, acc => acc
  | fuel + 1, d, acc =>
    if d = 0 then acc else varintGroups fuel (d / 128) ((0x80#8 ||| BitVec.ofNat 8 (d % 128)) :: acc)

/-- `varintEncode(d)` (R332): the least number of groups. -/
def varintEncode (d : Nat) : Bytes :=
  varintGroups (d / 128) (d / 128) [BitVec.ofNat 8 (d % 128)]

/-- The accumulation of R106 with at most `left` further bytes after the next. -/
def varintGo : Nat → Nat → Bytes → Except FaultCode (Nat × Bytes)
  | _, _, [] => .error .demoTruncated
  | left, d, b :: t =>
    let d' := d * 128 + (b &&& 0x7F#8).toNat
    if b.getLsbD 7 = false then .ok (d', t)
    else match left with
      | 0 => .error .varintTooLong
      | left' + 1 => varintGo left' d' t

/-- `varintDecode` (R333) from the front of `bs`: the number and the bytes after it. -/
def varintDecode (bs : Bytes) : Except FaultCode (Nat × Bytes) := varintGo (Config.varintMax - 1) 0 bs

/-- A number of the transport, any Nat: as a varint with no bound on its length. -/
def takeNatGo : Nat → Bytes → Option (Nat × Bytes)
  | _, [] => none
  | d, b :: t =>
    let d' := d * 128 + (b &&& 0x7F#8).toNat
    if b.getLsbD 7 = false then some (d', t) else takeNatGo d' t

def takeNat (bs : Bytes) : Option (Nat × Bytes) := takeNatGo 0 bs

/-- A byte sequence of the transport: its length, then its bytes. -/
def takeBlob (bs : Bytes) : Option (Bytes × Bytes) := do
  let (n, r) ← takeNat bs
  takeBytes n r

def putBlob (b : Bytes) : Bytes := varintEncode b.length ++ b

/-- `n` items of the transport, one after another. -/
def takeMany {α : Type} (item : Bytes → Option (α × Bytes)) : Nat → Bytes → Option (List α × Bytes)
  | 0, bs => some ([], bs)
  | n + 1, bs => do
    let (a, r) ← item bs
    let (as, r') ← takeMany item n r
    some (a :: as, r')

/-- A list of the transport: how many items, then the items. -/
def takeList {α : Type} (item : Bytes → Option (α × Bytes)) (bs : Bytes) : Option (List α × Bytes) := do
  let (n, r) ← takeNat bs
  takeMany item n r

def putList {α : Type} (item : α → Bytes) (as : List α) : Bytes :=
  varintEncode as.length ++ as.flatMap item

/-! ## Register accesses (R91 to R101): the rows of the opcode table in its order -/

/-- The register offset of an address: how far it lies above `P_PORT_BASE` (R92; log 33). -/
def regOffset (p : Params) (addr : Byte) : Byte := addr - p.portBase

/-- The write of `v` at `addr`: the row of its offset from `P_PORT_BASE` (R92; 0xA0 is offset 0x00). -/
def decodeRegWrite (p : Params) (addr v : Byte) : Instr :=
  let off := regOffset p addr
  if off = 0x00#8 then .wrFrqLo0 v
  else if off = 0x02#8 then .wrFrqLo1 v
  else if off = 0x04#8 then .wrFrqLo2 v
  else if off = 0x01#8 then .wrToneCtl0 v
  else if off = 0x03#8 then .wrToneCtl1 v
  else if off = 0x05#8 then .wrToneCtl2 v
  else if off = 0x06#8 then .wrNoiseCtl v
  else if off = 0x07#8 then .wrSysCtl v
  else if off &&& 0xFC#8 = 0x08#8 then .wrVolL (Fin.ofNat 4 off.toNat) v
  else if off &&& 0xFC#8 = 0x0C#8 then .wrVolR (Fin.ofNat 4 off.toNat) v
  else if off &&& 0xFC#8 = 0x10#8 then .wrPage (Fin.ofNat 4 off.toNat) v
  else if off = 0x14#8 then .wrIntCtl v
  else if off = 0x15#8 then .wrKbdRow v
  else if off = 0x16#8 then .wrB6 v
  else if off = 0x17#8 then .wrReserved (off.extractLsb' 0 5) v
  else if off &&& 0xF8#8 = 0x18#8 then .wrReserved (off.extractLsb' 0 5) v
  else .wrUnmapped addr v

/-- The read at `addr`. -/
def decodeRegRead (p : Params) (addr : Byte) : Instr :=
  let off := regOffset p addr
  if off &&& 0xF0#8 = 0x00#8 then .rdWo (off.extractLsb' 0 4)
  else if off &&& 0xFC#8 = 0x10#8 then .rdPage (Fin.ofNat 4 off.toNat)
  else if off = 0x14#8 then .rdIntStat
  else if off = 0x15#8 then .rdKbdCol
  else if off = 0x16#8 then .rdTape
  else if off = 0x17#8 then .rdReserved (off.extractLsb' 0 5)
  else if off &&& 0xF8#8 = 0x18#8 then .rdReserved (off.extractLsb' 0 5)
  else .rdUnmapped addr

/-! ## Scanline tags (R103, R104) -/

/-- The next tag and its operands; `none` where the payload ends before all of them (R225). -/
def decodeTag : Bytes → Option (Instr × Bytes)
  | [] => none
  | tag :: t =>
    if tag = 0x00#8 then some (.blank, t)
    else if tag = 0x01#8 then
      match t with
      | c0 :: r => some (.fill1 c0, r)
      | _ => none
    else if tag = 0x02#8 then
      match t with
      | c0 :: c1 :: r => some (.fill2 c0 c1, r)
      | _ => none
    else if tag = 0x03#8 then
      match t with
      | c0 :: c1 :: c2 :: c3 :: r => some (.fill4 c0 c1 c2 c3, r)
      | _ => none
    else if tag = 0x04#8 then
      match t with
      | c0 :: c1 :: c2 :: c3 :: c4 :: c5 :: c6 :: c7 :: r => some (.fill8 c0 c1 c2 c3 c4 c5 c6 c7, r)
      | _ => none
    else if tag = 0x05#8 then
      match t with
      | c0 :: c1 :: bits :: r => some (.bmp8 c0 c1 bits, r)
      | _ => none
    else if tag = 0x06#8 then
      match t with
      | c0a :: c1a :: bitsA :: c0b :: c1b :: bitsB :: r => some (.bmp16 c0a c1a bitsA c0b c1b bitsB, r)
      | _ => none
    else some (.unknownTag tag, t)

/-! ## Demo records (R105 to R108) -/

/-- `readEvent` (R336): the type byte, the length byte and that many payload bytes, after a delta. -/
def readEvent : Bytes → Option (Byte × Bytes × Bytes)
  | ty :: len :: t =>
    match takeBytes len.toNat t with
    | some (payload, r) => some (ty, payload, r)
    | none => none
  | _ => none

/-- The record with an event of type `ty` (R108). -/
def demoRecord (delta : BitVec 63) (ty : Byte) (payload : Bytes) : Instr :=
  if ty = 0x00#8 then .demoEnd delta payload
  else if ty = 0x01#8 then .demoKeyDown delta payload
  else if ty = 0x02#8 then .demoKeyUp delta payload
  else .demoUnknown delta ty payload

/-- A whole record: `varint(delta) ++ [type] ++ [len] ++ payload[len]` (R107). -/
def decodeDemo (bs : Bytes) : Option (Instr × Bytes) :=
  match varintDecode bs with
  | .error _ => none
  | .ok (d, r) =>
    match readEvent r with
    | none => none
    | some (ty, payload, r') => some (demoRecord (BitVec.ofNat 63 d) ty payload, r')

/-! ## Snapshot chunks (R110, R111) -/

/-- The next chunk; `none` where the bytes end inside it (R370, `Truncated`). The end chunk takes
everything behind it, which R379 asks to be zero. -/
def decodeChunk (bs : Bytes) : Option (Instr × Bytes) := do
  let (tag, r) ← takeBE32 bs
  let (n, r) ← takeBE32 r
  if tag = Config.tagEnd then some (.chunkEnd n r, [])
  else
    let (payload, r) ← takeBytes n.toNat r
    let (crc, r) ← takeBE32 r
    if tag = Config.tagChip then some (.chunkChip payload crc, r)
    else if tag = Config.tagDemo then some (.chunkDemo payload crc, r)
    else if tag = Config.tagMach then some (.chunkMach payload crc, r)
    else some (.chunkUnknown tag payload crc, r)

/-! ## Commands (R112) -/

/-- A key code; one of 128 or above cannot be built (R118). -/
def takeKey : Bytes → Option (BitVec 7 × Bytes)
  | [] => none
  | k :: t => if k.getLsbD 7 then none else some (k.extractLsb' 0 7, t)

def putKey (k : BitVec 7) : Bytes := [k.setWidth 8]

/-- The command whose code of R112 comes first. -/
def decodeCommand : Bytes → Option (Command × Bytes)
  | [] => none
  | code :: t =>
    if code = 0x01#8 then some (.reset, t)
    else if code = 0x02#8 then (takeKey t).map fun (k, r) => (.keyDown k, r)
    else if code = 0x03#8 then (takeKey t).map fun (k, r) => (.keyUp k, r)
    else if code = 0x04#8 then (takeBE16 t).map fun (v, r) => (.setVolume v, r)
    else if code = 0x05#8 then (takeByte t).map fun (op, r) => (.tape op, r)
    else if code = 0x06#8 then do
      let (dx, r) ← takeBE16 t
      let (dy, r) ← takeBE16 r
      some (.mouseDelta dx dy, r)
    else if code = 0x07#8 then (takeBool t).map fun (b, r) => (.setPaused b, r)
    else if code = 0x08#8 then some (.demoRecordStart, t)
    else if code = 0x09#8 then some (.demoRecordStop, t)
    else if code = 0x0A#8 then (takeBlob t).map fun (b, r) => (.demoPlayStart b, r)
    else if code = 0x0B#8 then some (.demoPlayStop, t)
    else none

def encodeCommand : Command → Bytes
  | .reset => [0x01#8]
  | .keyDown k => 0x02#8 :: putKey k
  | .keyUp k => 0x03#8 :: putKey k
  | .setVolume v => 0x04#8 :: be16 v
  | .tape op => [0x05#8, op]
  | .mouseDelta dx dy => 0x06#8 :: (be16 dx ++ be16 dy)
  | .setPaused b => 0x07#8 :: putBool b
  | .demoRecordStart => [0x08#8]
  | .demoRecordStop => [0x09#8]
  | .demoPlayStart blob => 0x0A#8 :: putBlob blob
  | .demoPlayStop => [0x0B#8]

/-! ## Calls of the environment (R317) and interface calls (R113) -/

def decodeEnvCall : Bytes → Option (EnvCall × Bytes)
  | [] => none
  | code :: t =>
    if code = 0x01#8 then do
      let (a, r) ← takeByte t
      let (v, r) ← takeByte r
      some (.writeRegister a v, r)
    else if code = 0x02#8 then (takeByte t).map fun (a, r) => (.readRegister a, r)
    else if code = 0x03#8 then (takeBool t).map fun (s, r) => (.setInt1State s, r)
    else if code = 0x04#8 then (takeBool t).map fun (s, r) => (.setInt2State s, r)
    else if code = 0x05#8 then (takeBool t).map fun (s, r) => (.setTapeInput s, r)
    else if code = 0x06#8 then (takeBool t).map fun (s, r) => (.setTapeFeedback s, r)
    else if code = 0x07#8 then do
      let (i, r) ← takeNat t
      let (p, r) ← takeBlob r
      some (.submitScanline i p, r)
    else if code = 0x08#8 then do
      let (l, r) ← takeBool t
      let (slot, r) ← takeNat r
      some (.notifyFieldSync l slot, r)
    else none

def encodeEnvCall : EnvCall → Bytes
  | .writeRegister a v => [0x01#8, a, v]
  | .readRegister a => [0x02#8, a]
  | .setInt1State s => 0x03#8 :: putBool s
  | .setInt2State s => 0x04#8 :: putBool s
  | .setTapeInput s => 0x05#8 :: putBool s
  | .setTapeFeedback s => 0x06#8 :: putBool s
  | .submitScanline i p => 0x07#8 :: (varintEncode i ++ putBlob p)
  | .notifyFieldSync l slot => 0x08#8 :: (putBool l ++ varintEncode slot)

/-- The call whose position in the list of R113 (from 0) comes first. -/
def decodeCall : Bytes → Option (Instr × Bytes)
  | [] => none
  | code :: t =>
    if code = 0x00#8 then some (.advanceOneCycle, t)
    else if code = 0x01#8 then do
      let (a, r) ← takeByte t
      let (v, r) ← takeByte r
      some (.writeRegister a v, r)
    else if code = 0x02#8 then (takeByte t).map fun (a, r) => (.readRegister a, r)
    else if code = 0x03#8 then (takeBool t).map fun (s, r) => (.setInt1State s, r)
    else if code = 0x04#8 then (takeBool t).map fun (s, r) => (.setInt2State s, r)
    else if code = 0x05#8 then (takeBool t).map fun (s, r) => (.setTapeInput s, r)
    else if code = 0x06#8 then (takeBool t).map fun (s, r) => (.setTapeFeedback s, r)
    else if code = 0x07#8 then do
      let (i, r) ← takeNat t
      let (p, r) ← takeBlob r
      some (.submitScanline i p, r)
    else if code = 0x08#8 then do
      let (l, r) ← takeBool t
      let (slot, r) ← takeNat r
      some (.notifyFieldSync l slot, r)
    else if code = 0x09#8 then some (.requestFrame, t)
    else if code = 0x0A#8 then some (.requestAutodetect, t)
    else if code = 0x0B#8 then do
      let (x1, r) ← takeNat t
      let (y1, r) ← takeNat r
      let (x2, r) ← takeNat r
      let (y2, r) ← takeNat r
      some (.setViewport x1 y1 x2 y2, r)
    else if code = 0x0C#8 then (decodeCommand t).map fun (c, r) => (.enqueue c, r)
    else if code = 0x0D#8 then do
      let (us, r) ← takeNat t
      let (env, r) ← takeList (takeList decodeEnvCall) r
      some (.runFor us env, r)
    else if code = 0x0E#8 then (takeNat t).map fun (ms, r) => (.lock ms, r)
    else if code = 0x0F#8 then some (.unlock, t)
    else if code = 0x10#8 then some (.requestShutdown, t)
    else if code = 0x11#8 then some (.saveSnapshot, t)
    else if code = 0x12#8 then (takeBlob t).map fun (b, r) => (.loadSnapshot b, r)
    else if code = 0x13#8 then some (.demoBlob, t)
    else none

/-! ## The decoder -/

/-- The first instruction of an item of format `f`, and what is left of the item. -/
def decode (p : Params) (f : Format) (bs : Bytes) : Option (Instr × Bytes) :=
  match f with
  | .regWrite =>
    match bs with
    | a :: v :: r => some (decodeRegWrite p a v, r)
    | _ => none
  | .regRead =>
    match bs with
    | a :: r => some (decodeRegRead p a, r)
    | _ => none
  | .scanlineTag => decodeTag bs
  | .demoRecord => decodeDemo bs
  | .snapshotChunk => decodeChunk bs
  | .command => (decodeCommand bs).map fun (c, r) => (c.toInstr, r)
  | .interface => decodeCall bs

/-! ## The encoder -/

def encodeEvent (delta : BitVec 63) (ty : Byte) (payload : Bytes) : Bytes :=
  varintEncode delta.toNat ++ ty :: BitVec.ofNat 8 payload.length :: payload

/-- One chunk (R110). DESIGN CHOICE (log 37): the length of a payload of 2^32 bytes or more, which be32 does not
define, is written modulo 2^32. -/
def encodeChunk (tag : Word) (payload : Bytes) (crc : Word) : Bytes :=
  be32 tag ++ be32 (BitVec.ofNat 32 payload.length) ++ payload ++ be32 crc

/-- The register address at offset `off` (R92). -/
def regAddr (p : Params) (off : Byte) : Byte := p.portBase + off

/-- The register address of channel or page `c` in a block of four from offset `off` on. -/
def addrWith (p : Params) (off : Byte) (c : Fin 4) : Byte := regAddr p (off + BitVec.ofNat 8 c.val)

/-- The bytes of a well-formed instruction, in its format. -/
def encode (par : Params) : Instr → Bytes
  | .wrFrqLo0 v => [regAddr par 0x00#8, v]
  | .wrFrqLo1 v => [regAddr par 0x02#8, v]
  | .wrFrqLo2 v => [regAddr par 0x04#8, v]
  | .wrToneCtl0 v => [regAddr par 0x01#8, v]
  | .wrToneCtl1 v => [regAddr par 0x03#8, v]
  | .wrToneCtl2 v => [regAddr par 0x05#8, v]
  | .wrNoiseCtl v => [regAddr par 0x06#8, v]
  | .wrSysCtl v => [regAddr par 0x07#8, v]
  | .wrVolL c v => [addrWith par 0x08#8 c, v]
  | .wrVolR c v => [addrWith par 0x0C#8 c, v]
  | .wrPage k v => [addrWith par 0x10#8 k, v]
  | .wrIntCtl v => [regAddr par 0x14#8, v]
  | .wrKbdRow v => [regAddr par 0x15#8, v]
  | .wrB6 v => [regAddr par 0x16#8, v]
  | .wrReserved off v => [regAddr par (off.setWidth 8), v]
  | .wrUnmapped a v => [a, v]
  | .rdWo off => [regAddr par (off.setWidth 8)]
  | .rdPage k => [addrWith par 0x10#8 k]
  | .rdIntStat => [regAddr par 0x14#8]
  | .rdKbdCol => [regAddr par 0x15#8]
  | .rdTape => [regAddr par 0x16#8]
  | .rdReserved off => [regAddr par (off.setWidth 8)]
  | .rdUnmapped a => [a]
  | .blank => [0x00#8]
  | .fill1 c0 => [0x01#8, c0]
  | .fill2 c0 c1 => [0x02#8, c0, c1]
  | .fill4 c0 c1 c2 c3 => [0x03#8, c0, c1, c2, c3]
  | .fill8 c0 c1 c2 c3 c4 c5 c6 c7 => [0x04#8, c0, c1, c2, c3, c4, c5, c6, c7]
  | .bmp8 c0 c1 bits => [0x05#8, c0, c1, bits]
  | .bmp16 c0a c1a bitsA c0b c1b bitsB => [0x06#8, c0a, c1a, bitsA, c0b, c1b, bitsB]
  | .unknownTag tag => [tag]
  | .demoEnd delta p => encodeEvent delta 0x00#8 p
  | .demoKeyDown delta p => encodeEvent delta 0x01#8 p
  | .demoKeyUp delta p => encodeEvent delta 0x02#8 p
  | .demoUnknown delta ty p => encodeEvent delta ty p
  | .chunkChip p crc => encodeChunk Config.tagChip p crc
  | .chunkDemo p crc => encodeChunk Config.tagDemo p crc
  | .chunkMach p crc => encodeChunk Config.tagMach p crc
  | .chunkEnd n trailing => be32 Config.tagEnd ++ be32 n ++ trailing
  | .chunkUnknown tag p crc => encodeChunk tag p crc
  | .cmdReset => encodeCommand .reset
  | .cmdKeyDown k => encodeCommand (.keyDown k)
  | .cmdKeyUp k => encodeCommand (.keyUp k)
  | .cmdSetVolume v => encodeCommand (.setVolume v)
  | .cmdTape op => encodeCommand (.tape op)
  | .cmdMouseDelta dx dy => encodeCommand (.mouseDelta dx dy)
  | .cmdSetPaused b => encodeCommand (.setPaused b)
  | .cmdDemoRecordStart => encodeCommand .demoRecordStart
  | .cmdDemoRecordStop => encodeCommand .demoRecordStop
  | .cmdDemoPlayStart blob => encodeCommand (.demoPlayStart blob)
  | .cmdDemoPlayStop => encodeCommand .demoPlayStop
  | .advanceOneCycle => [0x00#8]
  | .writeRegister a v => [0x01#8, a, v]
  | .readRegister a => [0x02#8, a]
  | .setInt1State s => 0x03#8 :: putBool s
  | .setInt2State s => 0x04#8 :: putBool s
  | .setTapeInput s => 0x05#8 :: putBool s
  | .setTapeFeedback s => 0x06#8 :: putBool s
  | .submitScanline i p => 0x07#8 :: (varintEncode i ++ putBlob p)
  | .notifyFieldSync l slot => 0x08#8 :: (putBool l ++ varintEncode slot)
  | .requestFrame => [0x09#8]
  | .requestAutodetect => [0x0A#8]
  | .setViewport x1 y1 x2 y2 =>
    0x0B#8 :: (varintEncode x1 ++ varintEncode y1 ++ varintEncode x2 ++ varintEncode y2)
  | .enqueue c => 0x0C#8 :: encodeCommand c
  | .runFor us env => 0x0D#8 :: (varintEncode us ++ putList (putList encodeEnvCall) env)
  | .lock ms => 0x0E#8 :: varintEncode ms
  | .unlock => [0x0F#8]
  | .requestShutdown => [0x10#8]
  | .saveSnapshot => [0x11#8]
  | .loadSnapshot blob => 0x12#8 :: putBlob blob
  | .demoBlob => [0x13#8]

/-! ## The host's table word -/

/-- Which format a bare table word is taken in. The table numbers the words of each format from zero,
and a word does not say its format, so one word can be a row of several formats; this is the model's
choice of one (DESIGN CHOICE, log 3): 32 bits a snapshot chunk, 9 to 16 bits a register write, and of
the 8-bit words those at a chip address or above 0xBF a register write, 0x07 to 0x0B a command, and the
others a scanline tag. -/
def tableFormat (nbits w : Nat) : Format :=
  if 16 < nbits then .snapshotChunk
  else if 8 < nbits then .regWrite
  else if 0xA0 ≤ w % 256 then .regWrite
  else if 0x07 ≤ w % 256 ∧ w % 256 ≤ 0x0B then .command
  else .scanlineTag

/-- The bytes of a table word, padded with zero operand bytes. A 32-bit word is a chunk tag and stands
most significant byte first (R63); otherwise the first byte is bits 7..0 and the second bits 15..8. -/
def tableBytes (nbits w : Nat) : Bytes :=
  (if 16 < nbits then be32 (BitVec.ofNat 32 w)
   else [BitVec.ofNat 8 w, BitVec.ofNat 8 (w / 256)]) ++ List.replicate 12 0#8

/-- The instruction the decoder reads from a table word, with the default parameters. -/
def decodeTableWord (nbits w : Nat) : Option Instr :=
  (decode {} (tableFormat nbits w) (tableBytes nbits w)).map Prod.fst

end Sys2Proof
end

