-- ==== Sys2Proof/Machine/State.lean ====
section
/-! DEFINITION. The machine's state: every piece of state spec/10_state.md names, the working state of
the line decoder and the snapshot loader, and the model's own input, result, output and draw fields.
All of it is plain data. -/

namespace Sys2Proof.Machine

/-- A byte memory: (address, byte) pairs with strictly rising addresses and no entry equal to the blank
byte, which is what an unlisted address reads as (R45: "all 0"; log 19). -/
abbrev Memory := List Host.Cell

/-- The canonical form of a memory. -/
abbrev Memory.wf (m : Memory) : Prop :=
  m.Pairwise (fun p q => p.1 < q.1) ∧ ∀ c ∈ m, c.2 ≠ Config.blankByte

/-- A payload per line index, absent for `None`: `pipe.slots` and `pipe.last_payload` (R45). -/
abbrev LineMap := List (Nat × Bytes)

/-- The canonical form of a line map: rising line indices. -/
abbrev LineMap.wf (m : LineMap) : Prop := m.Pairwise (fun p q => p.1 < q.1)

/-- The selector enumeration of R19. -/
inductive Selector where
  | none | fixedOscillator | channel0 | channel1 | channel2 | poly4 | poly5 | poly7 | polyVariable
deriving DecidableEq, Repr

/-- The chip state of 10_state.md sections 2 to 7. -/
structure Chip where
  frq : Tri (BitVec 12)
  dist : Tri (BitVec 2)
  hp : Quad Bool
  rm : Quad Bool
  phase : Tri (BitVec 12)
  osc : Tri Bool
  nclk : BitVec 2
  vlsel : BitVec 2
  swap : Bool
  lp3 : Bool
  fixPhase : Word
  fixOsc : Bool
  clkPrev : Bool
  lpHold : Bool
  raw : Quad Bool
  rawPrev : Quad Bool
  mPrev : Quad Bool
  hpLatch : Quad Bool
  out : Quad Bool
  volL : Quad (BitVec 6)
  volR : Quad (BitVec 6)
  dac : Quad Bool
  p4 : Nat
  p5 : Nat
  p7 : Nat
  pv : Nat
  intEn : Quad Bool
  intState : Quad Bool
  intActive : Quad Bool
  sndSel : BitVec 2
  sndPhase : Word
  oneHzPhase : Word
  page : Quad Byte
  kbdRow : BitVec 4
  tapeIn : Bool
  tapeFb : Bool
deriving DecidableEq, Repr

/-- The chip reset table (70_reset_and_hazards.md R421): every field 0. -/
def Chip.reset : Chip where
  frq := Tri.all 0
  dist := Tri.all 0
  hp := Quad.all false
  rm := Quad.all false
  phase := Tri.all 0
  osc := Tri.all false
  nclk := 0
  vlsel := 0
  swap := false
  lp3 := false
  fixPhase := 0
  fixOsc := false
  clkPrev := false
  lpHold := false
  raw := Quad.all false
  rawPrev := Quad.all false
  mPrev := Quad.all false
  hpLatch := Quad.all false
  out := Quad.all false
  volL := Quad.all 0
  volR := Quad.all 0
  dac := Quad.all false
  p4 := 0
  p5 := 0
  p7 := 0
  pv := 0
  intEn := Quad.all false
  intState := Quad.all false
  intActive := Quad.all false
  sndSel := 0
  sndPhase := 0
  oneHzPhase := 0
  page := Quad.all 0
  kbdRow := 0
  tapeIn := false
  tapeFb := false

/-- The keyboard matrix (R33): bit k is key k, 1 when pressed. -/
abbrev Keys := BitVec 128

/-- An event of the event queue (R44). -/
inductive Event where
  | line (i : Nat) (p : Bytes)
  | frameDone (odd : Bool)
deriving DecidableEq, Repr

/-- The viewport, inclusive bounds (R45, R268). -/
structure Viewport where
  x1 : Nat
  y1 : Nat
  x2 : Nat
  y2 : Nat
deriving DecidableEq, Repr

/-- The content bounding box (R45, R266). -/
structure Box where
  top : Nat
  left : Nat
  bottom : Nat
  right : Nat
deriving DecidableEq, Repr

/-- What `requestFrame` returns (R271): a copy of the framebuffer and the viewport. -/
structure Frame where
  fb : Memory
  viewport : Viewport
deriving DecidableEq, Repr

/-- The frame pipeline (R43 to R45). Pixel (y, x) of `decoded`, `rows0`, `rows1` and `fb` stands at
address `y * P_OUT_W + x`. -/
structure Pipe where
  vsyncState : Bool
  vsyncCnt : Nat
  oddPending : Bool
  /-- oldest event first -/
  evq : List Event
  slots : LineMap
  lastPayload : LineMap
  decoded : Memory
  /-- `field_rows[0]` -/
  rows0 : Memory
  /-- `field_rows[1]` -/
  rows1 : Memory
  fb : Memory
  interlaceCnt : Nat
  frameReady : Nat
  viewport : Viewport
  bbox : Option Box
  border : Option Byte
  autodetectReq : Bool
  decodeCount : Nat
  /-- a waiting `requestFrame` and the milliseconds left of its timeout (R270; the model's own, log 11) -/
  waitLeft : Option Nat
deriving DecidableEq, Repr

/-- The construction values of R43 to R45. DESIGN CHOICE (log 36): with `P_FIELD_LINES` = 0, which R10 allows, FB_H - 1
is 0. -/
def Pipe.construct (p : Params) : Pipe where
  vsyncState := false
  vsyncCnt := 0
  oddPending := false
  evq := []
  slots := []
  lastPayload := []
  decoded := []
  rows0 := []
  rows1 := []
  fb := []
  interlaceCnt := 0
  frameReady := 0
  viewport := ⟨0, 0, p.outW - 1, p.fbH - 1⟩
  bbox := none
  border := none
  autodetectReq := false
  decodeCount := 0
  waitLeft := none

/-- The synchronizer (R47). -/
structure Sync where
  /-- oldest command first -/
  cmdq : List Command
  shutdown : Bool
  paused : Bool
  lockHeld : Bool
  cycleRem : Nat
  mcPhase : Nat
  dropped : Nat
  /-- the machine context can no longer read the old shutdown flag (R76; the model's own, log 12) -/
  shutSeen : Bool
deriving DecidableEq, Repr

/-- The construction values of R47. -/
def Sync.construct : Sync where
  cmdq := []
  shutdown := false
  paused := false
  lockHeld := false
  cycleRem := 0
  mcPhase := 0
  dropped := 0
  shutSeen := false

/-- The three modes of the demo layer (R330). -/
inductive DemoMode where
  | idle | recording | playing
deriving DecidableEq, Repr

/-- The demo layer (R48). -/
structure Demo where
  mode : DemoMode
  recBuf : Bytes
  recTicks : Nat
  playBuf : Bytes
  playPos : Nat
  countdown : Nat
  committed : Option Bytes
  startSnapshot : Option Bytes
  lastError : Option FaultCode
deriving DecidableEq, Repr

/-- The construction values of R48. -/
def Demo.construct : Demo where
  mode := .idle
  recBuf := []
  recTicks := 0
  playBuf := []
  playPos := 0
  countdown := 0
  committed := none
  startSnapshot := none
  lastError := none

/-- The line decoder's working state (R220): the row so far, the next pixel, and whether it has met the
end of the data (R229). -/
structure LineDec where
  row : Bytes
  x : Nat
  stopped : Bool
deriving DecidableEq, Repr

/-- `row <- P_OUT_W bytes, all 0; x <- 0` (R220). -/
def LineDec.start (p : Params) : LineDec where
  row := List.replicate p.outW Config.blankByte
  x := 0
  stopped := false

/-- How far a snapshot load has come: reading chunks, past the end chunk, or failed (R383). -/
inductive LoadStatus where
  | running
  | done
  | failed (e : FaultCode)
deriving DecidableEq, Repr

/-- The loader's working state (R383): the staged chip and the demo log. -/
structure Loader where
  staged : Option Chip
  log : Option Bytes
  status : LoadStatus
deriving DecidableEq, Repr

/-- `staged <- None; log <- None` (R383). -/
def Loader.start : Loader where
  staged := none
  log := none
  status := .running

/-- The two contexts of the block (R72, R402). -/
inductive Agent where
  | machine | host
deriving DecidableEq, Repr

/-- One item waiting on the input port: the context that makes its calls (log 13), bytes of a format, and whether
they begin a new item (log 1). -/
structure Item where
  caller : Agent
  fmt : Format
  first : Bool
  bytes : Bytes
deriving DecidableEq, Repr

/-- What a call returned (R113; log 7). -/
inductive Result where
  | unit
  | byte (v : Byte)
  | sample (l r : Half)
  | bool (b : Bool)
  | frame (f : Option Frame)
  /-- `requestFrame` waits -/
  | waiting
  | blob (b : Option Bytes)
  | load (r : Except FaultCode Unit)
deriving DecidableEq, Repr

/-- What the block hands to a unit outside it (log 8). -/
inductive Output where
  /-- one stereo sample to the resampler (R205) -/
  | sample (l r : Half)
  /-- the host volume (R302) -/
  | volume (v : Half)
  /-- a tape transport request (R303) -/
  | tape (op : Byte)
  /-- mouse deltas (R309) -/
  | mouse (dx dy : Half)
  /-- the byte a CPU's `readRegister` returned (R317) -/
  | cpuRead (addr v : Byte)
  /-- what a `requestFrame` returned (R270, R271) -/
  | frame (f : Option Frame)
deriving DecidableEq, Repr

/-- The state of the block. -/
structure State where
  /-- the parameters, fixed at construction (R425) -/
  par : Params
  chip : Chip
  keys : Keys
  pipe : Pipe
  sync : Sync
  demo : Demo
  dec : LineDec
  loader : Loader
  /-- the calls that wait to be made, the next one first (the model's own, log 1) -/
  input : List Item
  /-- the context that makes the call being run (R402; the model's own, log 13) -/
  caller : Agent
  /-- what the last call returned (the model's own, log 7) -/
  result : Result
  /-- what the block handed out, newest first (the model's own, log 8) -/
  outbox : List Output
  /-- how many free values have been drawn (the model's own, log 9) -/
  draws : Nat
deriving DecidableEq, Repr

/-- Why the machine stops with a fault. -/
inductive Fault where
  /-- 0x30 ResourceFault (R391, R392): raised by `construct` alone, when a pooled buffer cannot be
  allocated; "construction fails; no block exists". No step raises it. Safe: nothing runs. -/
  | resourceFault
deriving DecidableEq, Repr

/-- Why a step is refused. -/
inductive Refusal where
  /-- exec has no meaning for the instruction yet. Safe: the run stops. -/
  | notModelled (mnemonic : String)
  /-- The parameters break R10, raised by `step` and `construct`: "the model refuses the configuration".
  Safe. -/
  | badConfig
  /-- The bytes at the input port are no register access, command or call, raised by `cutShort`: R118 "an
  unknown command cannot be built" (93 U18 `refuse`). Safe: the run stops. -/
  | undecodable
  /-- A snapshot call, a demo blob call or a register access of the host without the machine lock, raised by
  those: R75 "The model refuses it: it has no step". Safe: "This errs toward unprovable". -/
  | hostWithoutLock
  /-- A call of the machine context while the host holds the lock (R74: "the machine context performs no
  step"), raised by every such call but `runFor`: R402 "outside the model and is refused". Safe. -/
  | machineWhileLocked
  /-- A call of the other context's, raised by every call that only one context may make: R402 "An operation
  called from the wrong context is outside the model and is refused". Safe. -/
  | wrongContext
deriving DecidableEq, Repr

/-- The construction state with parameters `p` (R424). -/
def State.construct (p : Params) : State where
  par := p
  chip := Chip.reset
  keys := 0
  pipe := Pipe.construct p
  sync := Sync.construct
  demo := Demo.construct
  dec := LineDec.start p
  loader := Loader.start
  input := []
  caller := .machine
  result := .unit
  outbox := []
  draws := 0

/-- The machine right after reset: the construction state of R424 with the default parameters (log 20). -/
def State.reset : State := State.construct {}

/-! ## Named updates, one per field a step may write -/

def State.withChip (s : State) (v : Chip) : State := { s with chip := v }
def State.withKeys (s : State) (v : Keys) : State := { s with keys := v }
def State.withPipe (s : State) (v : Pipe) : State := { s with pipe := v }
def State.withSync (s : State) (v : Sync) : State := { s with sync := v }
def State.withDemo (s : State) (v : Demo) : State := { s with demo := v }
def State.withDec (s : State) (v : LineDec) : State := { s with dec := v }
def State.withLoader (s : State) (v : Loader) : State := { s with loader := v }
def State.withInput (s : State) (v : List Item) : State := { s with input := v }
def State.withCaller (s : State) (v : Agent) : State := { s with caller := v }
def State.withResult (s : State) (v : Result) : State := { s with result := v }
def State.withOutbox (s : State) (v : List Output) : State := { s with outbox := v }
def State.withDraws (s : State) (v : Nat) : State := { s with draws := v }

end Sys2Proof.Machine
end

