-- ==== Sys2Proof/Machine/Flags.lean ====
section
/-! DEFINITION. Flags: edges (R15), the interrupt line and status byte (R29, R99), the tape and keyboard
bytes (R100, R101), and tape button sensing (R49). -/

namespace Sys2Proof.Machine

/-- `rise(s) = (not s_prev) and s` (R15). -/
def rise (prev now : Bool) : Bool := !prev && now

/-- `fall(s) = s_prev and (not s)` (R15). -/
def fall (prev now : Bool) : Bool := prev && !now

/-- The interrupt line (R29, R396): the OR of the four active bits, never stored. -/
def Chip.irq (ch : Chip) : Bool :=
  ch.intActive.c0 || ch.intActive.c1 || ch.intActive.c2 || ch.intActive.c3

/-- The byte with bit j given by `f j`. -/
def byteOfBits (f : Nat → Bool) : Byte :=
  (List.range 8).foldl (fun r j => if f j then r ||| (1#8 <<< j) else r) 0#8

/-- The interrupt status byte (R99, R145): bit 2i is `int_state[i]`, bit 2i+1 is `int_active[i]`. -/
def intStatus (ch : Chip) : Byte :=
  byteOfBits fun j =>
    if j % 2 = 0 then ch.intState.get (Fin.ofNat 4 (j / 2)) else ch.intActive.get (Fin.ofNat 4 (j / 2))

/-- Key `k` is pressed (R33). -/
def keyPressed (keys : Keys) (k : Nat) : Bool := keys.getLsbD k

/-- `keys[k] <- b`. -/
def setKey (keys : Keys) (k : BitVec 7) (b : Bool) : Keys :=
  if b then keys ||| (1#128 <<< k.toNat) else keys &&& ~~~(1#128 <<< k.toNat)

/-- The keyboard column byte of the latched row (R100, R146), active low. -/
def keyColumns (ch : Chip) (keys : Keys) : Byte :=
  byteOfBits fun j => !keyPressed keys (ch.kbdRow.toNat * 8 + j)

/-- The tape byte (R101, R147): bit 7 `tape_in`, bit 6 `tape_fb`, the others 1. -/
def tapeByte (ch : Chip) : Byte :=
  byteOfBits fun j => if j = 7 then ch.tapeIn else if j = 6 then ch.tapeFb else true

/-- Tape button sensing (R49, R351): on only while the demo layer is idle. -/
def tapeSense (d : Demo) : Bool := d.mode == .idle

end Sys2Proof.Machine
end

