-- ==== Sys2Proof/Machine/Operands.lean ====
section
/-! DEFINITION. Operand forms: the fields of the register bytes (30_encoding.md R93 to R101), the pixel
formulas of the scanline tags (R103), and the derived selectors (10_state.md R40 to R42). -/

namespace Sys2Proof.Machine

/-! ## Tone control byte (R93) -/

/-- Bits 3:0, `frq[c][11:8]`. -/
def toneFrqHi (v : Byte) : BitVec 4 := v.extractLsb' 0 4
/-- Bits 5:4. -/
def toneDist (v : Byte) : BitVec 2 := v.extractLsb' 4 2
/-- Bit 6. -/
def toneHp (v : Byte) : Bool := v.getLsbD 6
/-- Bit 7. -/
def toneRm (v : Byte) : Bool := v.getLsbD 7

/-! ## Noise control byte (R94) -/

/-- Bits 1:0. -/
def noiseClk (v : Byte) : BitVec 2 := v.extractLsb' 0 2
/-- Bits 3:2. -/
def noiseVlsel (v : Byte) : BitVec 2 := v.extractLsb' 2 2
/-- Bit 4. -/
def noiseSwap (v : Byte) : Bool := v.getLsbD 4
/-- Bit 5. -/
def noiseLp3 (v : Byte) : Bool := v.getLsbD 5
/-- Bit 6. -/
def noiseHp (v : Byte) : Bool := v.getLsbD 6
/-- Bit 7. -/
def noiseRm (v : Byte) : Bool := v.getLsbD 7

/-! ## The other write bytes (R95 to R100) -/

/-- Bits 2:1 of 0xA7 (R95). -/
def sysSndSel (v : Byte) : BitVec 2 := v.extractLsb' 1 2
/-- Bits 7:4 of 0xA7: `dac[c] = v[4 + c]` (R95). -/
def sysDac (v : Byte) : Quad Bool := Quad.ofFn fun c => v.getLsbD (4 + c.val)
/-- Bits 5:0 of a volume byte (R97). -/
def volume (v : Byte) : BitVec 6 := v.extractLsb' 0 6
/-- Bits 2i of 0xB4 (R98). -/
def intEnables (v : Byte) : Quad Bool := Quad.ofFn fun i => v.getLsbD (2 * i.val)
/-- Bits 2i + 1 of 0xB4 (R98). -/
def intClears (v : Byte) : Quad Bool := Quad.ofFn fun i => v.getLsbD (2 * i.val + 1)
/-- Bits 3:0 of 0xB5 (R100). -/
def keyRow (v : Byte) : BitVec 4 := v.extractLsb' 0 4

/-! ## Pixel j of a tag's 16 (R103, R221 to R228) -/

/-- R221. -/
def pixBlank (_j : Nat) : Byte := Config.blankByte
/-- R222. -/
def pixFill1 (c0 : Byte) (_j : Nat) : Byte := c0
/-- R223: `c[floor(j / 8)]`. -/
def pixFill2 (c0 c1 : Byte) (j : Nat) : Byte := [c0, c1].getD (j / 8) Config.blankByte
/-- R224: `c[floor(j / 4)]`. -/
def pixFill4 (c0 c1 c2 c3 : Byte) (j : Nat) : Byte := [c0, c1, c2, c3].getD (j / 4) Config.blankByte
/-- R226: `c[floor(j / 2)]`. -/
def pixFill8 (c0 c1 c2 c3 c4 c5 c6 c7 : Byte) (j : Nat) : Byte :=
  [c0, c1, c2, c3, c4, c5, c6, c7].getD (j / 2) Config.blankByte
/-- R227: `c1` if `bits[7 - floor(j / 2)]`, else `c0`. -/
def pixBmp8 (c0 c1 bits : Byte) (j : Nat) : Byte := if bits.getLsbD (7 - j / 2) then c1 else c0
/-- R228: the first eight pixels from group a, the others from group b. -/
def pixBmp16 (c0a c1a bitsA c0b c1b bitsB : Byte) (j : Nat) : Byte :=
  if j < 8 then (if bitsA.getLsbD (7 - j) then c1a else c0a)
  else (if bitsB.getLsbD (15 - j) then c1b else c0b)

/-- The `P_SLOT_PX` pixels that a pixel formula gives. -/
def pixels (pix : Nat → Byte) : Bytes := (List.range Config.slotPx).map pix

/-! ## Derived selectors (R40 to R42): never stored -/

/-- `vlen(vlsel)` (R41). -/
def vlen (vlsel : BitVec 2) : Nat :=
  if vlsel = 0#2 then 17 else if vlsel = 1#2 then 15 else if vlsel = 2#2 then 11 else 9

/-- `vlen_len` (R41). -/
def vlenLen (vlsel : BitVec 2) : Nat := 2 ^ vlen vlsel - 1

/-- `sel_tone(c)` (R40). -/
def selTone (ch : Chip) (c : Fin 3) : Selector :=
  let d := ch.dist.get c
  if d = 0#2 then .none
  else if d = 1#2 then .poly4
  else if d = 2#2 then .poly5
  else if ch.swap then .polyVariable else .poly7

/-- `sel_noise` (R40). -/
def selNoise (ch : Chip) : Selector := if ch.swap then .poly7 else .polyVariable

/-- `sel_clock` (R40). -/
def selClock (ch : Chip) : Selector :=
  if ch.nclk = 0#2 then .fixedOscillator
  else if ch.nclk = 1#2 then .channel0
  else if ch.nclk = 2#2 then .channel1 else .channel2

/-- `selbyte` (R42): the width of the table a channel reads, 0 for the square wave. R42 gives none for
a clock selector, to which it is never applied. -/
def selByte (ch : Chip) (sel : Selector) : Byte :=
  match sel with
  | .none => 0
  | .poly4 => 4
  | .poly5 => 5
  | .poly7 => 7
  | .polyVariable => BitVec.ofNat 8 (vlen ch.vlsel)
  | .fixedOscillator | .channel0 | .channel1 | .channel2 => 0

/-- The four selector bytes of a chip chunk (R373, offsets 107 to 110). -/
def selBytes (ch : Chip) : Bytes :=
  [selByte ch (selTone ch 0), selByte ch (selTone ch 1), selByte ch (selTone ch 2),
   selByte ch (selNoise ch)]

/-! ## Fixed wiring of the modulation partners (R186, R178) -/

/-- `HP(c)`. -/
def hpPartner (c : Fin 4) : Fin 4 :=
  match c with
  | 0 => 1
  | 1 => 2
  | 2 => 3
  | 3 => 0

/-- `RM(c)`. -/
def rmPartner (c : Fin 4) : Fin 4 :=
  match c with
  | 0 => 2
  | 1 => 3
  | 2 => 0
  | 3 => 1

end Sys2Proof.Machine
end

