-- ==== Sys2Proof/Machine/Ops.lean ====
section
/-! DEFINITION. The named operations every meaning is built from: byte memories and line maps, the
interrupt latch and its acknowledge (R198, R398), the register dispatch (R130), machine reset (R420),
stopping the demo (R346, R350), draws, outputs, and the checks of the two contexts (R402). -/

namespace Sys2Proof.Machine

/-! ## Byte memories (log 19) -/

/-- The byte at `a`; an unlisted address reads as the blank byte (R45). -/
def Memory.read : Memory → Nat → Byte
  | [], _ => Config.blankByte
  | (b, v) :: t, a => if b = a then v else Memory.read t a

/-- `m` with byte `v` at `a`, in canonical form. -/
def Memory.write : Memory → Nat → Byte → Memory
  | [], a, v => if v = Config.blankByte then [] else [(a, v)]
  | (b, w) :: t, a, v =>
    if a < b then (if v = Config.blankByte then (b, w) :: t else (a, v) :: (b, w) :: t)
    else if a = b then (if v = Config.blankByte then t else (a, v) :: t)
    else (b, w) :: Memory.write t a v

/-- The cells below address `a`. -/
def Memory.below (m : Memory) (a : Nat) : Memory := m.filter fun c => decide (c.1 < a)

/-- The cells at address `a` and above. -/
def Memory.above (m : Memory) (a : Nat) : Memory := m.filter fun c => decide (a ≤ c.1)

/-- The cells that the bytes `bs` from address `a` on make. -/
def Memory.cellsFrom : Nat → Bytes → Memory
  | _, [] => []
  | a, v :: t => if v = Config.blankByte then Memory.cellsFrom (a + 1) t
                 else (a, v) :: Memory.cellsFrom (a + 1) t

/-- `m` with the bytes `bs` from address `a` on. -/
def Memory.writeBytes (m : Memory) (a : Nat) (bs : Bytes) : Memory :=
  m.below a ++ Memory.cellsFrom a bs ++ m.above (a + bs.length)

/-- `dst` with its `n` bytes from `a` on replaced by the `n` bytes of `src` from `b` on. -/
def Memory.copyBlock (dst : Memory) (a : Nat) (src : Memory) (b n : Nat) : Memory :=
  dst.below a ++ (((src.above b).below (b + n)).map fun c => (c.1 - b + a, c.2)) ++
    dst.above (a + n)

/-! ## Line maps -/

/-- The payload at line `i`. -/
def LineMap.find : LineMap → Nat → Option Bytes
  | [], _ => none
  | (j, p) :: t, i => if j = i then some p else LineMap.find t i

/-- `m` with payload `p` at line `i`. -/
def LineMap.insert : LineMap → Nat → Bytes → LineMap
  | [], i, p => [(i, p)]
  | (j, q) :: t, i, p =>
    if i < j then (i, p) :: (j, q) :: t
    else if i = j then (i, p) :: t
    else (j, q) :: LineMap.insert t i p

/-! ## Interrupt entry and acknowledge: the block's whole trap behaviour (R396, R398) -/

/-- `latch(i)` (R198). "The block's trap-entry behaviour is exactly this: the line rises when a latch
sets the first active bit" (R396). -/
def latch (i : Fin 4) (ch : Chip) : Chip :=
  if ch.intEn.get i && !ch.intActive.get i then { ch with intActive := ch.intActive.set i true } else ch

/-- The clear strobe of source `i` (R138, R398), the block's only return from an interrupt. -/
def acknowledge (i : Fin 4) (ch : Chip) : Chip := { ch with intActive := ch.intActive.set i false }

/-- A new level of source i's state bit: a falling edge latches (R196, R197, R211, R212). -/
def setIntState (i : Fin 4) (s : Bool) (ch : Chip) : Chip :=
  let ch := if fall (ch.intState.get i) s then latch i ch else ch
  { ch with intState := ch.intState.set i s }

/-! ## Register writes (40_chip_registers.md R131 to R142) -/

/-- R131. -/
def wrFrqLo (c : Fin 3) (v : Byte) (ch : Chip) : Chip :=
  { ch with frq := ch.frq.set c ((ch.frq.get c).extractLsb' 8 4 ++ v) }

/-- R132. -/
def wrToneCtl (c : Fin 3) (v : Byte) (ch : Chip) : Chip :=
  { ch with
    frq := ch.frq.set c (toneFrqHi v ++ (ch.frq.get c).extractLsb' 0 8)
    dist := ch.dist.set c (toneDist v)
    hp := ch.hp.set c.castSucc (toneHp v)
    rm := ch.rm.set c.castSucc (toneRm v) }

/-- R133: `pv` is reduced modulo the new length at once. -/
def wrNoiseCtl (v : Byte) (ch : Chip) : Chip :=
  { ch with
    nclk := noiseClk v
    vlsel := noiseVlsel v
    pv := ch.pv % vlenLen (noiseVlsel v)
    swap := noiseSwap v
    lp3 := noiseLp3 v
    hp := ch.hp.set 3 (noiseHp v)
    rm := ch.rm.set 3 (noiseRm v) }

/-- R134. -/
def wrSysCtl (v : Byte) (ch : Chip) : Chip := { ch with sndSel := sysSndSel v, dac := sysDac v }

/-- R135. -/
def wrVolL (c : Fin 4) (v : Byte) (ch : Chip) : Chip := { ch with volL := ch.volL.set c (volume v) }

/-- R136. -/
def wrVolR (c : Fin 4) (v : Byte) (ch : Chip) : Chip := { ch with volR := ch.volR.set c (volume v) }

/-- R137. -/
def wrPage (k : Fin 4) (v : Byte) (ch : Chip) : Chip := { ch with page := ch.page.set k v }

/-- The part of R138 for source `i`: its enable, then its clear strobe. -/
def wrIntSource (v : Byte) (i : Fin 4) (ch : Chip) : Chip :=
  let ch := { ch with intEn := ch.intEn.set i ((intEnables v).get i) }
  if (intClears v).get i then acknowledge i ch else ch

/-- R138: `for i in 0..3`. -/
def wrIntCtl (v : Byte) (ch : Chip) : Chip :=
  wrIntSource v 3 (wrIntSource v 2 (wrIntSource v 1 (wrIntSource v 0 ch)))

/-- R139. -/
def wrKbdRow (v : Byte) (ch : Chip) : Chip := { ch with kbdRow := keyRow v }

/-- R140 to R142: "the write is ignored". -/
def wrIgnored (_v : Byte) (ch : Chip) : Chip := ch

/-- The dispatch of `writeRegister` (R130) on the offset from `P_PORT_BASE` (log 33). -/
def writeReg (par : Params) (addr v : Byte) (ch : Chip) : Chip :=
  let off := (regOffset par addr).toNat
  if 0x20 ≤ off then wrIgnored v ch
  else
    if off = 0x00 ∨ off = 0x02 ∨ off = 0x04 then wrFrqLo (Fin.ofNat 3 (off / 2)) v ch
    else if off = 0x01 ∨ off = 0x03 ∨ off = 0x05 then wrToneCtl (Fin.ofNat 3 (off / 2)) v ch
    else if off = 0x06 then wrNoiseCtl v ch
    else if off = 0x07 then wrSysCtl v ch
    else if 0x08 ≤ off ∧ off ≤ 0x0B then wrVolL (Fin.ofNat 4 (off - 0x08)) v ch
    else if 0x0C ≤ off ∧ off ≤ 0x0F then wrVolR (Fin.ofNat 4 (off - 0x0C)) v ch
    else if 0x10 ≤ off ∧ off ≤ 0x13 then wrPage (Fin.ofNat 4 (off - 0x10)) v ch
    else if off = 0x14 then wrIntCtl v ch
    else if off = 0x15 then wrKbdRow v ch
    else if off = 0x16 then wrIgnored v ch
    else wrIgnored v ch

/-! ## Register reads (R143 to R149): no read changes any state (R150) -/

/-- The dispatch of `readRegister` (R130). -/
def readReg (par : Params) (addr : Byte) (ch : Chip) (keys : Keys) : Byte :=
  let off := (regOffset par addr).toNat
  if 0x20 ≤ off then par.sentinel
  else
    if off ≤ 0x0F then par.sentinel
    else if 0x10 ≤ off ∧ off ≤ 0x13 then ch.page.get (Fin.ofNat 4 (off - 0x10))
    else if off = 0x14 then intStatus ch
    else if off = 0x15 then keyColumns ch keys
    else if off = 0x16 then tapeByte ch
    else par.sentinel

/-! ## The state as a whole -/

/-- Hand `o` to a unit outside the block. -/
def State.send (s : State) (o : Output) : State := s.withOutbox (o :: s.outbox)

/-- Draw one free Boolean (log 9). -/
def State.drawBool (s : State) : Bool × State := (Config.draw s.draws, s.withDraws (s.draws + 1))

/-- Draw one free wait length in milliseconds (log 11). -/
def State.drawMs (s : State) : Nat × State := (Config.waitMs s.draws, s.withDraws (s.draws + 1))

/-- `machineReset()` (R420): the chip takes the reset table and every key is released; nothing else
changes. -/
def machineReset (s : State) : State := (s.withChip Chip.reset).withKeys 0

/-- `stopRecording()` (R346). -/
def stopRecording (s : State) : State :=
  let buf := s.demo.recBuf ++ [0x00#8, 0x00#8, 0x00#8]
  s.withDemo { s.demo with recBuf := buf, committed := some buf, mode := .idle }

/-- `stopPlayback(err)` (R350). -/
def stopPlayback (err : Option FaultCode) (s : State) : State :=
  (s.withDemo { s.demo with mode := .idle, lastError := err }).withKeys 0

/-- `if demo.mode == Recording: stopRecording()`. -/
def stopIfRecording (s : State) : State := if s.demo.mode = .recording then stopRecording s else s

/-- `if demo.mode == Playing: stopPlayback(None)`. -/
def stopIfPlaying (s : State) : State := if s.demo.mode = .playing then stopPlayback none s else s

/-- What a queue operation of the machine context makes visible to it: a shutdown flag set before
(R76; log 12). -/
def machineQueueOp (s : State) : State :=
  s.withSync { s.sync with shutSeen := s.sync.shutSeen || s.sync.shutdown }

/-- The outcome of a call that gives state `s` and returns `r`. -/
def done (s : State) (r : Result) : Host.Outcome State Fault Refusal := .next (s.withResult r)

/-! ## The two contexts (R402; log 13): why a call of the state's caller is refused, `none` where it is not -/

/-- `runFor`: the machine context's, which does nothing while the host holds the lock (R314). -/
def machineCheck (s : State) : Option Refusal :=
  match s.caller with
  | .machine => none
  | .host => some .wrongContext

/-- The machine context's other calls: none of them is made while the host holds the lock (R74). -/
def unlockedCheck (s : State) : Option Refusal :=
  match s.caller with
  | .machine => if s.sync.lockHeld then some .machineWhileLocked else none
  | .host => some .wrongContext

/-- The host context's calls. DESIGN CHOICE (log 40): they run while a `requestFrame` waits too, and leave the wait
open. -/
def hostCheck (s : State) : Option Refusal :=
  match s.caller with
  | .machine => some .wrongContext
  | .host => none

/-- The host's calls that need the lock (R75). -/
def lockedCheck (s : State) : Option Refusal :=
  match s.caller with
  | .machine => some .wrongContext
  | .host => if s.sync.lockHeld then none else some .hostWithoutLock

/-- Register accesses: the machine context's without the lock (R74), the host's under it (R75). -/
def accessCheck (s : State) : Option Refusal :=
  match s.caller with
  | .machine => if s.sync.lockHeld then some .machineWhileLocked else none
  | .host => if s.sync.lockHeld then none else some .hostWithoutLock

/-- A call that `check` lets pass. -/
def guarded (check : State → Option Refusal) (s : State) (go : State → State × Result) :
    Host.Outcome State Fault Refusal :=
  match check s with
  | some r => .refused r
  | none => done (go s).1 (go s).2

/-- The same for a call that returns nothing. -/
def guardedUnit (check : State → Option Refusal) (s : State) (go : State → State) :
    Host.Outcome State Fault Refusal := guarded check s fun s => (go s, .unit)

/-- Construction (R392, R424): whether every pooled buffer could be allocated is the host's, R10 refuses
a bad configuration, and otherwise the block is in the construction state (log 29). DESIGN CHOICE
(log 39): the spec does not order the two failures; an allocation failure is answered first. -/
def construct (allocated : Bool) (p : Params) : Host.Outcome State Fault Refusal :=
  if !allocated then .fault .resourceFault
  else if p.valid then .next (State.construct p)
  else .refused .badConfig

end Sys2Proof.Machine
end

