-- ==== Sys2Proof/Machine/ChipCycle.lean ====
section
/-! DEFINITION. One chip cycle: 41_chip_cycle.md R170 to R199, in the eight steps of R172. The chip's step
is a function of the parameters and the chip state alone (R201). -/

namespace Sys2Proof.Machine

/-! ## Polynomial tables (R170): entry i of the n-bit table, by running the shift register i times -/

/-- One shift of the n-bit Fibonacci register with tap `t`. -/
def lfsrNext (n t s : Nat) : Nat :=
  (s >>> 1) ||| ((if s.testBit 0 != s.testBit (n - t) then 1 else 0) <<< (n - 1))

/-- The register after `i` shifts from `s`. -/
def lfsrRun (n t : Nat) : Nat → Nat → Nat
  | 0, s => s
  | i + 1, s => lfsrRun n t i (lfsrNext n t s)

/-- `Tn[i]`: the seed is n one-bits. -/
def polyTable (n t i : Nat) : Bool := (lfsrRun n t i (2 ^ n - 1)).testBit 0

/-- The tap of the variable counter at its current width (R9, R41). -/
def varTap (taps : Taps) (vlsel : BitVec 2) : Nat :=
  if vlsel = 0#2 then taps.t17
  else if vlsel = 1#2 then taps.t15
  else if vlsel = 2#2 then taps.t11 else taps.t9

/-- `polybit(sel)` (R171); "never applied to `None` or to a clock selector". -/
def polyBit (p : Params) (ch : Chip) (sel : Selector) : Bool :=
  match sel with
  | .poly4 => polyTable 4 p.taps.t4 ch.p4
  | .poly5 => polyTable 5 p.taps.t5 ch.p5
  | .poly7 => polyTable 7 p.taps.t7 ch.p7
  | .polyVariable => polyTable (vlen ch.vlsel) (varTap p.taps ch.vlsel) ch.pv
  | .none | .fixedOscillator | .channel0 | .channel1 | .channel2 => false

/-! ## Step 1: polynomial counters (R173, R174) -/

def stepPoly (ch : Chip) : Chip :=
  { ch with
    p4 := (ch.p4 + 1) % 15
    p5 := (ch.p5 + 1) % 31
    p7 := (ch.p7 + 1) % 127
    pv := (ch.pv + 1) % vlenLen ch.vlsel }

/-! ## Step 2: tone channels (R176, R177) -/

/-- What a tone channel's raw output takes at an underflow that leaves the flip-flop at `o` (R177). -/
def toneSource (p : Params) (ch : Chip) (c : Fin 3) (o : Bool) : Bool :=
  if selTone ch c = .none then o else polyBit p ch (selTone ch c)

def stepTone (p : Params) (c : Fin 3) (ch : Chip) : Chip :=
  if ch.phase.get c = 0#12 then
    let o := !ch.osc.get c
    { ch with
      phase := ch.phase.set c (ch.frq.get c)
      osc := ch.osc.set c o
      raw := ch.raw.set c.castSucc (toneSource p ch c o) }
  else { ch with phase := ch.phase.set c (ch.phase.get c - 1) }

/-! ## Step 3: fixed oscillator (R180) -/

def stepFixOsc (p : Params) (ch : Chip) : Chip :=
  if ch.fixPhase = 0#32 then { ch with fixPhase := p.fixOscReload, fixOsc := !ch.fixOsc }
  else { ch with fixPhase := ch.fixPhase - 1 }

/-! ## Step 4: noise channel (R182 to R184) -/

/-- The noise clock's level (R182). -/
def noiseClock (ch : Chip) : Bool :=
  match selClock ch with
  | .channel0 => ch.raw.c0
  | .channel1 => ch.raw.c1
  | .channel2 => ch.raw.c2
  | .none | .fixedOscillator | .poly4 | .poly5 | .poly7 | .polyVariable => ch.fixOsc

def stepNoise (p : Params) (ch : Chip) : Chip :=
  let clk := noiseClock ch
  { ch with
    raw := if rise ch.clkPrev clk then ch.raw.set 3 (polyBit p ch (selNoise ch)) else ch.raw
    clkPrev := clk }

/-! ## Step 5: modulation and gating (R186 to R190) -/

/-- `m` of channel c: its raw bit, ring-modulated with its partner's raw bit (R187). -/
def modBit (ch : Chip) (c : Fin 4) : Bool :=
  if ch.rm.get c then ch.raw.get c ^^ ch.raw.get (rmPartner c) else ch.raw.get c

/-- The highpass latch of channel c after this cycle (R188): set by a rise of the channel's own `m`,
cleared by a fall of the partner, the clear winning; held while highpass is off. -/
def hpNext (ch : Chip) (c : Fin 4) : Bool :=
  if ch.hp.get c then
    (ch.hpLatch.get c || rise (ch.mPrev.get c) (modBit ch c)) &&
      !fall (ch.rawPrev.get (hpPartner c)) (ch.raw.get (hpPartner c))
  else ch.hpLatch.get c

/-- The bit after highpass (R188). -/
def hpBit (ch : Chip) (c : Fin 4) : Bool :=
  if ch.hp.get c then modBit ch c && hpNext ch c else modBit ch c

/-- The lowpass hold stage after this cycle (R189). -/
def lpNext (ch : Chip) : Bool :=
  if ch.lp3 && fall ch.rawPrev.c2 ch.raw.c2 then hpBit ch 3 else ch.lpHold

/-- The gated bit (R190). -/
def gatedBit (ch : Chip) (c : Fin 4) : Bool :=
  if c = 3 ∧ ch.lp3 = true then lpNext ch else hpBit ch c

def stepGate (ch : Chip) : Chip :=
  { ch with
    hpLatch := Quad.ofFn (hpNext ch)
    lpHold := lpNext ch
    out := Quad.ofFn (gatedBit ch) }

/-! ## Step 6: mix (R191) -/

/-- `level(dac, out, vol)`. -/
def level (dac out : Bool) (vol : BitVec 6) : Nat :=
  if dac then vol.toNat <<< Config.dacShift else if out then vol.toNat else 0

/-- The exact sum of one side. -/
def mixSide (dac out : Quad Bool) (vol : Quad (BitVec 6)) : Nat :=
  level dac.c0 out.c0 vol.c0 + level dac.c1 out.c1 vol.c1 + level dac.c2 out.c2 vol.c2 +
    level dac.c3 out.c3 vol.c3

/-- The sample of the cycle, left and right (R191, R205). -/
def mix (ch : Chip) : Half × Half :=
  (BitVec.ofNat 16 (mixSide ch.dac ch.out ch.volL), BitVec.ofNat 16 (mixSide ch.dac ch.out ch.volR))

/-! ## Step 7: timers (R196, R197) -/

/-- `onehz_step()` (R196). -/
def stepOneHz (p : Params) (ch : Chip) : Chip :=
  if ch.oneHzPhase = 0#32 then
    setIntState 1 (!ch.intState.get 1) { ch with oneHzPhase := p.oneHzReload }
  else setIntState 1 (ch.intState.get 1) { ch with oneHzPhase := ch.oneHzPhase - 1 }

/-- The reload of the sound timer in modes 0 and 1 (R197). -/
def sndReload (p : Params) (sel : BitVec 2) : Word := if sel = 0#2 then p.sndReload1k else p.sndReload50

/-- `sound_step()` (R197). -/
def stepSound (p : Params) (ch : Chip) : Chip :=
  if ch.sndSel = 2#2 then setIntState 0 (ch.osc.get 0) ch
  else if ch.sndSel = 3#2 then setIntState 0 (ch.osc.get 1) ch
  else if ch.sndPhase = 0#32 then
    setIntState 0 (!ch.intState.get 0) { ch with sndPhase := sndReload p ch.sndSel }
  else setIntState 0 (ch.intState.get 0) { ch with sndPhase := ch.sndPhase - 1 }

/-! ## Step 8: edge history (R193) -/

def stepHistory (ch : Chip) : Chip := { ch with rawPrev := ch.raw, mPrev := Quad.ofFn (modBit ch) }

/-! ## The cycle (R172) -/

/-- Steps 1 to 5: everything before the mix. -/
def synth (p : Params) (ch : Chip) : Chip :=
  stepGate (stepNoise p (stepFixOsc p (stepTone p 2 (stepTone p 1 (stepTone p 0 (stepPoly ch))))))

/-- Steps 7 and 8: everything after the mix. -/
def settle (p : Params) (ch : Chip) : Chip := stepHistory (stepSound p (stepOneHz p ch))

/-- `advanceOneCycle()` on the chip: its next state and the sample. -/
def chipCycle (p : Params) (ch : Chip) : Chip × (Half × Half) :=
  let g := synth p ch
  (settle p g, mix g)

/-- `advanceOneCycle()`: the sample goes to the resampler (R205). -/
def advance (s : State) : State × (Half × Half) :=
  let r := chipCycle s.par s.chip
  ((s.withChip r.1).send (.sample r.2.1 r.2.2), r.2)

end Sys2Proof.Machine
end

