-- ==== Sys2Proof/Machine/SnapshotCodec.lean ====
section
/-! DEFINITION. The snapshot codec of 46_snapshot.md: the checksum (R364), the chip chunk (R373 to R375),
what each chunk does to the loader (R377 to R380), save, load and the failed load (R382 to R384), and the
demo blob (45_demo_log.md R354). -/

namespace Sys2Proof.Machine

/-! ## Checksum (R364) -/

def crcBit (r : Word) : Word := if r.getLsbD 0 then (r >>> 1) ^^^ 0xEDB88320#32 else r >>> 1

def crcByte (r : Word) (x : Byte) : Word :=
  crcBit (crcBit (crcBit (crcBit (crcBit (crcBit (crcBit (crcBit (r ^^^ x.setWidth 32))))))))

def crc32 (b : Bytes) : Word := b.foldl crcByte 0xFFFFFFFF#32 ^^^ 0xFFFFFFFF#32

/-! ## The chip chunk's payload (R373) -/

/-- A Bool is one byte, 0 or 1. -/
def boolByte (b : Bool) : Byte := if b then 1#8 else 0#8

def boolBytes (q : Quad Bool) : Bytes := [boolByte q.c0, boolByte q.c1, boolByte q.c2, boolByte q.c3]

def volBytes (q : Quad (BitVec 6)) : Bytes :=
  [q.c0.setWidth 8, q.c1.setWidth 8, q.c2.setWidth 8, q.c3.setWidth 8]

def codeBytes (t : Tri (BitVec 12)) : Bytes :=
  be16 (t.c0.setWidth 16) ++ be16 (t.c1.setWidth 16) ++ be16 (t.c2.setWidth 16)

/-- `encodeChip` (R373): 111 bytes, in the order of the table. -/
def encodeChip (ch : Chip) : Bytes :=
  codeBytes ch.frq ++ [ch.dist.c0.setWidth 8, ch.dist.c1.setWidth 8, ch.dist.c2.setWidth 8] ++
  boolBytes ch.hp ++ boolBytes ch.rm ++ codeBytes ch.phase ++
  [boolByte ch.osc.c0, boolByte ch.osc.c1, boolByte ch.osc.c2] ++
  [ch.nclk.setWidth 8, ch.vlsel.setWidth 8, boolByte ch.swap, boolByte ch.lp3] ++ be32 ch.fixPhase ++
  [boolByte ch.fixOsc, boolByte ch.clkPrev, boolByte ch.lpHold] ++
  boolBytes ch.raw ++ boolBytes ch.rawPrev ++ boolBytes ch.mPrev ++ boolBytes ch.hpLatch ++
  boolBytes ch.out ++ volBytes ch.volL ++ volBytes ch.volR ++ boolBytes ch.dac ++
  be16 (BitVec.ofNat 16 ch.p4) ++ be16 (BitVec.ofNat 16 ch.p5) ++ be16 (BitVec.ofNat 16 ch.p7) ++
  be32 (BitVec.ofNat 32 ch.pv) ++
  boolBytes ch.intEn ++ boolBytes ch.intState ++ boolBytes ch.intActive ++ [ch.sndSel.setWidth 8] ++
  be32 ch.sndPhase ++ be32 ch.oneHzPhase ++ [ch.page.c0, ch.page.c1, ch.page.c2, ch.page.c3] ++
  [ch.kbdRow.setWidth 8, boolByte ch.tapeIn, boolByte ch.tapeFb] ++ selBytes ch

/-- The byte at offset `k`. -/
def byteAt (b : Bytes) (k : Nat) : Byte := b.getD k 0#8
def halfAt (b : Bytes) (k : Nat) : Half := ofBE16 (byteAt b k) (byteAt b (k + 1))
def wordAt (b : Bytes) (k : Nat) : Word :=
  ofBE32 (byteAt b k) (byteAt b (k + 1)) (byteAt b (k + 2)) (byteAt b (k + 3))
/-- "nonzero -> 1". -/
def boolAt (b : Bytes) (k : Nat) : Bool := byteAt b k != 0#8
def boolsAt (b : Bytes) (k : Nat) : Quad Bool := Quad.ofFn fun c => boolAt b (k + c.val)
def volsAt (b : Bytes) (k : Nat) : Quad (BitVec 6) := Quad.ofFn fun c => (byteAt b (k + c.val)).setWidth 6
/-- `& 0x0FFF`. -/
def codesAt (b : Bytes) (k : Nat) : Tri (BitVec 12) :=
  ⟨(halfAt b k).setWidth 12, (halfAt b (k + 2)).setWidth 12, (halfAt b (k + 4)).setWidth 12⟩

/-- The fields at offsets 0 to 106, with their load normalisations (R373). -/
def chipFields (b : Bytes) : Chip where
  frq := codesAt b 0
  dist := ⟨(byteAt b 6).setWidth 2, (byteAt b 7).setWidth 2, (byteAt b 8).setWidth 2⟩
  hp := boolsAt b 9
  rm := boolsAt b 13
  phase := codesAt b 17
  osc := ⟨boolAt b 23, boolAt b 24, boolAt b 25⟩
  nclk := (byteAt b 26).setWidth 2
  vlsel := (byteAt b 27).setWidth 2
  swap := boolAt b 28
  lp3 := boolAt b 29
  fixPhase := wordAt b 30
  fixOsc := boolAt b 34
  clkPrev := boolAt b 35
  lpHold := boolAt b 36
  raw := boolsAt b 37
  rawPrev := boolsAt b 41
  mPrev := boolsAt b 45
  hpLatch := boolsAt b 49
  out := boolsAt b 53
  volL := volsAt b 57
  volR := volsAt b 61
  dac := boolsAt b 65
  p4 := (halfAt b 69).toNat % 15
  p5 := (halfAt b 71).toNat % 31
  p7 := (halfAt b 73).toNat % 127
  pv := (wordAt b 75).toNat % vlenLen ((byteAt b 27).setWidth 2)
  intEn := boolsAt b 79
  intState := boolsAt b 83
  intActive := boolsAt b 87
  sndSel := (byteAt b 91).setWidth 2
  sndPhase := wordAt b 92
  oneHzPhase := wordAt b 96
  page := ⟨byteAt b 100, byteAt b 101, byteAt b 102, byteAt b 103⟩
  kbdRow := (byteAt b 104).setWidth 4
  tapeIn := boolAt b 105
  tapeFb := boolAt b 106

/-- `decodeChip` (R373 to R375): the length check, the fields, then the selector check. -/
def decodeChip (b : Bytes) : Except FaultCode Chip :=
  if b.length ≠ Config.chipChunkLen then .error .chunkLength
  else
    let ch := chipFields b
    if selBytes ch = [byteAt b 107, byteAt b 108, byteAt b 109, byteAt b 110] then .ok ch
    else .error .selectorMismatch

/-! ## What each chunk does to a loader that is still reading (R383); one that is not ignores it -/

def Loader.fail (e : FaultCode) (l : Loader) : Loader := { l with status := .failed e }

/-- `if crc32(p) != c: raise FormatFault(BadChecksum)`, for a loader still reading. -/
def Loader.checked (payload : Bytes) (crc : Word) (go : Loader → Loader) (l : Loader) : Loader :=
  if l.status = .running then (if crc32 payload = crc then go l else l.fail .badChecksum) else l

/-- R373 to R375. -/
def loadChip (payload : Bytes) (crc : Word) : Loader → Loader :=
  Loader.checked payload crc fun l =>
    if l.staged.isSome then l.fail .duplicateChunk
    else match decodeChip payload with
      | .ok ch => { l with staged := some ch }
      | .error e => l.fail e

/-- R377. -/
def loadDemo (payload : Bytes) (crc : Word) : Loader → Loader :=
  Loader.checked payload crc fun l =>
    if l.log.isSome then l.fail .duplicateChunk else { l with log := some payload }

/-- R378: the payload is for the out-of-scope machine; "its loads check the checksum and drop the
payload" (log 23). -/
def loadMach (payload : Bytes) (crc : Word) : Loader → Loader := Loader.checked payload crc id

/-- R380. -/
def loadUnknown (payload : Bytes) (crc : Word) : Loader → Loader := Loader.checked payload crc id

/-- R379. -/
def loadEnd (n : Word) (trailing : Bytes) (l : Loader) : Loader :=
  if l.status = .running then
    if n ≠ 0#32 then l.fail .badEnd
    else if trailing.any (· != 0#8) then l.fail .trailingData
    else { l with status := .done }
  else l

/-- The case distinction of R383 on the tag. -/
def chunkStep (i : Instr) (l : Loader) : Loader :=
  match i with
  | .chunkChip payload crc => loadChip payload crc l
  | .chunkDemo payload crc => loadDemo payload crc l
  | .chunkMach payload crc => loadMach payload crc l
  | .chunkEnd n trailing => loadEnd n trailing l
  | .chunkUnknown _ payload crc => loadUnknown payload crc l
  | _ => l

/-- The bytes end inside a chunk (R370, R383): `Truncated`, for a loader still reading. -/
def loadCut (l : Loader) : Loader := if l.status = .running then l.fail .truncated else l

/-- The loop of R383: the chunks of `bs` one after another. Every chunk takes a byte, so one more than
the length is fuel enough. -/
def runChunks : Nat → Bytes → Loader → Loader
  | 0, _, l => l
  | fuel + 1, bs, l =>
    if l.status = .running then
      match decodeChunk bs with
      | none => loadCut l
      | some (i, rest) => runChunks fuel rest (chunkStep i l)
    else l

/-! ## Save (R382) -/

/-- `chunk(t, p)`. -/
def chunkBytes (tag : Word) (payload : Bytes) : Bytes := encodeChunk tag payload (crc32 payload)

/-- The end chunk (R379). -/
def endBytes : Bytes := be32 Config.tagEnd ++ be32 0#32

/-- A whole blob: `none` where the content does not fit, else zero bytes up to the fixed size. -/
def padBlob (p : Params) (content : Bytes) : Option Bytes :=
  if p.snapshotSize < content.length then none
  else some (content ++ List.replicate (p.snapshotSize - content.length) 0#8)

/-- The DEMO chunk of a committed log (R377). -/
def demoChunk (log : Option Bytes) : Bytes :=
  match log with
  | none => []
  | some b => chunkBytes Config.tagDemo b

/-- The writer of R382. The model has no machine payload, so it writes no MACH chunk (R378). -/
def saveBlob (p : Params) (ch : Chip) (log : Option Bytes) : Option Bytes :=
  padBlob p (be32 p.snapshotVersion ++ chunkBytes Config.tagChip (encodeChip ch) ++ demoChunk log ++ endBytes)

/-- `saveSnapshot()` (R382): "Saving changes no state". -/
def saveSnapshot (s : State) : Option Bytes := saveBlob s.par s.chip s.demo.committed

/-- `saveSnapshotCore()` (R382, R343). -/
def saveSnapshotCore (s : State) : Option Bytes := saveBlob s.par s.chip none

/-! ## Load (R383, R384) -/

/-- What a blob holds: the staged chip and the demo log, or the first fault of R383. -/
def readSnapshot (p : Params) (blob : Bytes) : Except FaultCode (Chip × Option Bytes) :=
  if blob.length ≠ p.snapshotSize then .error .badSize
  else match takeBE32 blob with
    | none => .error .truncated
    | some (v, rest) =>
      if v ≠ p.snapshotVersion then .error .versionMismatch
      else
        let l := runChunks (rest.length + 1) rest Loader.start
        match l.status with
        | .failed e => .error e
        | .running => .error .truncated
        | .done =>
          match l.staged with
          | none => .error .missingChip
          | some ch => .ok (ch, l.log)

/-- `loadFailed()` (R384). -/
def loadFailed (s : State) : State :=
  let s := machineReset s
  s.withDemo { s.demo with mode := .idle }

/-- The stops and the reset a load begins with (R383). -/
def loadBegin (s : State) : State := machineReset (stopIfPlaying (stopIfRecording s))

/-- `loadSnapshot(blob)` (R383): nothing is committed until the whole blob has passed. -/
def loadSnapshot (blob : Bytes) (s : State) : State × Except FaultCode Unit :=
  let s := loadBegin s
  match readSnapshot s.par blob with
  | .ok (ch, log) => ((s.withChip ch).withDemo { s.demo with committed := log }, .ok ())
  | .error e => (loadFailed s, .error e)

/-! ## The demo blob (45_demo_log.md R354) -/

/-- The chunks in front of the end chunk; `none` where there is none (log 34). -/
def beforeEnd : Nat → Bytes → Option Bytes
  | 0, _ => none
  | fuel + 1, bs =>
    match decodeChunk bs with
    | none => none
    | some (.chunkEnd _ _, _) => some []
    | some (_, rest) => (beforeEnd fuel rest).map fun t => bs.take (bs.length - rest.length) ++ t

/-- The snapshot `b` with a DEMO chunk holding `log` before its end chunk. -/
def withDemoChunk (p : Params) (b log : Bytes) : Option Bytes := do
  let chunks ← beforeEnd (b.length + 1) (b.drop 4)
  padBlob p (b.take 4 ++ chunks ++ chunkBytes Config.tagDemo log ++ endBytes)

/-- `demoBlob()` (R354). -/
def demoBlob (s : State) : Option Bytes :=
  match s.demo.startSnapshot, s.demo.committed with
  | some b, some log => withDemoChunk s.par b log
  | _, _ => none

end Sys2Proof.Machine
end

