-- ==== Sys2Proof/Machine/DemoPlayer.lean ====
section
/-! DEFINITION. The demo log of 45_demo_log.md: recording (R343 to R345), the events (R337 to R340) and
playback (R347 to R349). Stopping either is in Machine/Ops.lean (R346, R350). -/

namespace Sys2Proof.Machine

/-! ## Recording -/

/-- `recordKey(type, k)` (R344). -/
def recordKey (ty : Byte) (k : BitVec 7) (s : State) : State :=
  s.withDemo { s.demo with
    recBuf := s.demo.recBuf ++ varintEncode s.demo.recTicks ++ [ty, 0x01#8, k.setWidth 8]
    recTicks := 0 }

/-- `startRecording()` (R343). -/
def startRecording (s : State) : State :=
  match saveSnapshotCore s with
  | none => s.withDemo { s.demo with lastError := some .snapshotTooLarge }
  | some b =>
    (s.withKeys 0).withDemo { s.demo with
      startSnapshot := some b
      recBuf := be32 s.par.demoVersion
      recTicks := 0
      lastError := none
      mode := .recording }

/-! ## The events at dispatch -/

/-- END (R337). -/
def endEvent (s : State) : State := stopPlayback none s

/-- KEY_DOWN and KEY_UP (R338, R339). -/
def keyEvent (down : Bool) (payload : Bytes) (s : State) : State :=
  match payload with
  | [k] => if k.getLsbD 7 then stopPlayback (some .badKeyEvent) s
           else s.withKeys (setKey s.keys (k.extractLsb' 0 7) down)
  | _ => stopPlayback (some .badKeyEvent) s

/-- Any other type byte (R340). -/
def unknownEvent (s : State) : State := stopPlayback (some .unknownType) s

/-- The event of R337 to R340 by its type byte. -/
def dispatchEvent (ty : Byte) (payload : Bytes) (s : State) : State :=
  if ty = 0x00#8 then endEvent s
  else if ty = 0x01#8 then keyEvent true payload s
  else if ty = 0x02#8 then keyEvent false payload s
  else unknownEvent s

/-! ## Playback -/

/-- The delta at `pos` of the log (R333), and `play_pos` behind it; a decode error stops playback (R340) and moves
neither. -/
def readDelta (pos : Nat) (s : State) : State :=
  match varintDecode (s.demo.playBuf.drop pos) with
  | .error e => stopPlayback (some e) s
  | .ok (d, rest) =>
    s.withDemo { s.demo with countdown := d, playPos := s.demo.playBuf.length - rest.length }

/-- `dispatchOne()` (R348). -/
def dispatchOne (s : State) : State :=
  match readEvent (s.demo.playBuf.drop s.demo.playPos) with
  | none => stopPlayback (some .demoTruncated) s
  | some (ty, payload, rest) =>
    let s := dispatchEvent ty payload
      (s.withDemo { s.demo with playPos := s.demo.playBuf.length - rest.length })
    if s.demo.mode = .playing then readDelta s.demo.playPos s else s

/-- `while mode == Playing and countdown == 0: dispatchOne()`. -/
def playLoop : Nat → State → State
  | 0, s => s
  | fuel + 1, s =>
    if s.demo.mode = .playing ∧ s.demo.countdown = 0 then playLoop fuel (dispatchOne s) else s

/-- The loop with fuel enough: every dispatch moves `play_pos` on or stops. -/
def playDue (s : State) : State := playLoop (s.demo.playBuf.length + 1) s

/-- `playTick()` (R349). -/
def playTick (s : State) : State := playDue (s.withDemo { s.demo with countdown := s.demo.countdown - 1 })

/-- `demoTick()` (R331). -/
def demoTick (s : State) : State :=
  match s.demo.mode with
  | .idle => s
  | .recording => s.withDemo { s.demo with recTicks := min (s.demo.recTicks + 1) Config.deltaMax }
  | .playing => playTick s

/-- The log begins with the version tag (R341). -/
def versionOk (p : Params) (log : Bytes) : Bool :=
  match takeBE32 log with
  | none => false
  | some (v, _) => v == p.demoVersion

/-- `startPlayback(blob)` (R347). Where the blob holds no DEMO chunk, playback does not start and the machine is left
in the reset state: R391 0x25 "playback does not start, reset state", and R307 "A failure ... leaves the reset state
(rule R347)"; the step of R347 itself only sets `last_error` and returns (log 18). -/
def startPlayback (blob : Bytes) (s : State) : State :=
  let r := loadSnapshot blob s
  match r.2 with
  | .error e => r.1.withDemo { r.1.demo with lastError := some e }
  | .ok () =>
    match r.1.demo.committed with
    | none => (machineReset r.1).withDemo { r.1.demo with lastError := some .noDemoChunk }
    | some log =>
      let s := r.1.withDemo { r.1.demo with playBuf := log, lastError := none, mode := .playing }
      if versionOk s.par log then
        playDue (readDelta 4 s)
      else stopPlayback (some .badVersion) s

end Sys2Proof.Machine
end

