-- ==== Sys2Proof/Machine/LineDecoder.lean ====
section
/-! DEFINITION. The scanline decoder of 42_scanline_decoder.md: what each tag does to the decoder's
working state, and `decode(p)` (R220) as the run of the tags of a payload. -/

namespace Sys2Proof.Machine

/-- `row` with the pixels of `run` from `x` on, none of them past the row's end (R230). -/
def writeRun (row : Bytes) (x : Nat) (run : Bytes) : Bytes :=
  row.take x ++ run.take (row.length - x) ++ row.drop (x + run.length)

/-- The decoder takes no further tag: it met the end of the data (R229) or the row is full (R220). -/
def LineDec.finished (p : Params) (d : LineDec) : Bool := d.stopped || decide (p.outW ≤ d.x)

/-- One tag that writes 16 pixels (R220): the pixels below the width are written and `x` moves on. A
finished decoder ignores it (R230, R234). -/
def emit (p : Params) (pix : Nat → Byte) (d : LineDec) : LineDec :=
  if d.finished p then d
  else { d with row := writeRun d.row d.x (pixels pix), x := d.x + Config.slotPx }

/-- An unknown tag ends the data (R229). -/
def endOfData (p : Params) (d : LineDec) : LineDec :=
  if d.finished p then d else { d with stopped := true }

/-- What a tag does to the decoder (R221 to R229). -/
def tagStep (p : Params) (i : Instr) (d : LineDec) : LineDec :=
  match i with
  | .blank => emit p pixBlank d
  | .fill1 c0 => emit p (pixFill1 c0) d
  | .fill2 c0 c1 => emit p (pixFill2 c0 c1) d
  | .fill4 c0 c1 c2 c3 => emit p (pixFill4 c0 c1 c2 c3) d
  | .fill8 c0 c1 c2 c3 c4 c5 c6 c7 => emit p (pixFill8 c0 c1 c2 c3 c4 c5 c6 c7) d
  | .bmp8 c0 c1 bits => emit p (pixBmp8 c0 c1 bits) d
  | .bmp16 c0a c1a bitsA c0b c1b bitsB => emit p (pixBmp16 c0a c1a bitsA c0b c1b bitsB) d
  | _ => endOfData p d

/-- The loop of R220: the tags of `bs` one after another, until the row is full, the data ends, or a
tag's operands are cut short (R225). Every tag takes a byte, so the payload's length is fuel enough. -/
def decodeLoop (p : Params) : Nat → Bytes → LineDec → LineDec
  | 0, _, d => d
  | fuel + 1, bs, d =>
    if d.finished p then d
    else match decodeTag bs with
      | none => d
      | some (i, rest) => decodeLoop p fuel rest (tagStep p i d)

/-- `decode(p)` (R220): the row of a payload. -/
def decodeLine (p : Params) (payload : Bytes) : Bytes :=
  (decodeLoop p payload.length payload (LineDec.start p)).row

end Sys2Proof.Machine
end

