-- ==== Sys2Proof/Machine/Pipeline.lean ====
section
/-! DEFINITION. The frame pipeline of 43_frame_pipeline.md: the producer (R250 to R253), the consumer's
drain and field end (R254 to R260), autodetection (R265, R266), the viewport (R268) and frame delivery
(R270 to R272). -/

namespace Sys2Proof.Machine

/-! ## The event queue (R44, R250, R251, R263) -/

def Event.isDone : Event → Bool
  | .line _ _ => false
  | .frameDone _ => true

def Event.isLine (i : Nat) : Event → Bool
  | .line j _ => i == j
  | .frameDone _ => false

/-- "remove any Line(i, _) that follows the last FrameDone in evq" (R250, R251). -/
def supersede (i : Nat) : List Event → List Event
  | [] => []
  | e :: t => if e.isLine i && !t.any Event.isDone then supersede i t else e :: supersede i t

/-- The queue behind its first FrameDone: the oldest whole field group dropped. -/
def dropOldestField : List Event → List Event
  | [] => []
  | e :: t => if e.isDone then t else dropOldestField t

/-- `n` oldest field groups dropped. -/
def dropFields : Nat → List Event → List Event
  | 0, q => q
  | n + 1, q => dropFields n (dropOldestField q)

/-- The bound `P_EVQ_FIELDS` on undrained field groups (R263, U7): none by default. DESIGN CHOICE (log 22): a group is
what stands in the queue up to a FrameDone, the rest of a field whose first lines a drain has already taken too; where
that group is dropped, those lines stay in `slots` and join the next field. -/
def boundEvq (p : Params) (q : List Event) : List Event :=
  match p.evqFields with
  | none => q
  | some n => dropFields ((q.filter Event.isDone).length - n) q

/-! ## Rows of the pixel planes: row i is the `P_OUT_W` bytes from `i * P_OUT_W` on -/

/-- `field_rows[q]`. -/
def Pipe.rows (pi : Pipe) (q : Bool) : Memory := if q then pi.rows1 else pi.rows0

def Pipe.setRows (pi : Pipe) (q : Bool) (m : Memory) : Pipe :=
  if q then { pi with rows1 := m } else { pi with rows0 := m }

/-- `dst[i] <- src[j]` for whole rows. -/
def copyRow (p : Params) (dst : Memory) (i : Nat) (src : Memory) (j : Nat) : Memory :=
  dst.copyBlock (i * p.outW) src (j * p.outW) p.outW

/-- Pixel (y, x) of a plane. -/
def pixelAt (p : Params) (m : Memory) (y x : Nat) : Byte := m.read (y * p.outW + x)

/-! ## The host's pixels (R233, R271): applied by the host to a returned frame, no part of the state -/

/-- `P_PALETTE`: the host pixel of a raw byte, from the table where one is given and free where none is (log 41). -/
def hostPixel (p : Params) (b : Byte) : Nat :=
  match p.palette with
  | some table => table.get b.toFin
  | none => Config.palette b

/-- Host pixel (y, x) of a frame that `requestFrame` returned (R271). -/
def Frame.hostPixelAt (p : Params) (f : Frame) (y x : Nat) : Nat := hostPixel p (pixelAt p f.fb y x)

/-! ## Field end (R255 to R260) -/

/-- R255. -/
def stepInterlace (p : Params) (odd : Bool) (pi : Pipe) : Pipe :=
  { pi with interlaceCnt := if odd then p.interlaceHold else pi.interlaceCnt - 1 }

/-- R256 for one received line: decoded unless its payload is the one last decoded for that line. -/
def decodeSlot (p : Params) (pi : Pipe) (e : Nat × Bytes) : Pipe :=
  if LineMap.find pi.lastPayload e.1 = some e.2 then pi
  else
    { pi with
      decoded := pi.decoded.writeBytes (e.1 * p.outW) (decodeLine p e.2)
      lastPayload := LineMap.insert pi.lastPayload e.1 e.2
      decodeCount := pi.decodeCount + 1 }

/-- R256. -/
def decodeChanged (p : Params) (pi : Pipe) : Pipe := pi.slots.foldl (decodeSlot p) pi

/-- R257 for one received line. -/
def storeFieldRow (p : Params) (q : Bool) (pi : Pipe) (e : Nat × Bytes) : Pipe :=
  if e.1 < p.fieldLines then pi.setRows q (copyRow p (pi.rows q) e.1 pi.decoded e.1) else pi

/-- R257. -/
def storeFieldRows (p : Params) (q : Bool) (pi : Pipe) : Pipe := pi.slots.foldl (storeFieldRow p q) pi

/-- The writes of R258 for field line i. -/
def composeLine (p : Params) (q : Bool) (pi : Pipe) (fb : Memory) (i : Nat) : Memory :=
  if p.halfFrame then copyRow p fb i (pi.rows q) i
  else if 0 < pi.interlaceCnt then
    let own := if q then 2 * i + 1 else 2 * i
    let other := if q then 2 * i else 2 * i + 1
    copyRow p (copyRow p fb own (pi.rows q) i) other (pi.rows (!q)) i
  else copyRow p (copyRow p fb (2 * i) (pi.rows q) i) (2 * i + 1) (pi.rows q) i

/-- R258. -/
def composite (p : Params) (q : Bool) (pi : Pipe) : Pipe :=
  { pi with fb := (List.range p.fieldLines).foldl (composeLine p q pi) pi.fb }

/-! ## Autodetection (R266) -/

/-- Every pixel of the first `nb` rows equals `c`. -/
def uniformRows (p : Params) (fb : Memory) (nb : Nat) (c : Byte) : Bool :=
  (List.range nb).all fun y => (List.range p.outW).all fun x => pixelAt p fb y x == c

/-- The border sample (R266). DESIGN CHOICE (log 36): with FB_H = 0 there is no `fb[0][0]`; it reads as the blank byte. -/
def borderOf (p : Params) (fb : Memory) : Option Byte :=
  let c := pixelAt p fb 0 0
  if uniformRows p fb (min p.borderLines p.fbH) c then some c else none

/-- Row y holds a pixel that differs from `bg`. -/
def rowDiffers (p : Params) (fb : Memory) (bg : Byte) (y : Nat) : Bool :=
  (List.range p.outW).any fun x => pixelAt p fb y x != bg

/-- Column x holds a pixel that differs from `bg`. -/
def colDiffers (p : Params) (fb : Memory) (bg : Byte) (x : Nat) : Bool :=
  (List.range p.fbH).any fun y => pixelAt p fb y x != bg

/-- The least and greatest rows and columns of the pixels that differ from `bg` (R266). -/
def boxOf (p : Params) (fb : Memory) (bg : Byte) : Option Box := do
  let top ← (List.range p.fbH).find? (rowDiffers p fb bg)
  let left ← (List.range p.outW).find? (colDiffers p fb bg)
  let bottom ← (List.range p.fbH).reverse.find? (rowDiffers p fb bg)
  let right ← (List.range p.outW).reverse.find? (colDiffers p fb bg)
  some ⟨top, left, bottom, right⟩

/-- The autodetect heuristic (R266); it never touches the viewport (R267). -/
def autodetect (p : Params) (pi : Pipe) : Pipe :=
  let b := borderOf p pi.fb
  { pi with border := b, bbox := boxOf p pi.fb (b.getD Config.blankByte) }

/-- R260. -/
def fieldEnd (p : Params) (pi : Pipe) : Pipe :=
  let pi := { pi with slots := [], frameReady := pi.frameReady + 1 }
  if pi.autodetectReq then { autodetect p pi with autodetectReq := false } else pi

/-- A FrameDone event: R255 to R260 in that order (R254). -/
def frameDone (p : Params) (odd : Bool) (pi : Pipe) : Pipe :=
  fieldEnd p (composite p odd (storeFieldRows p odd (decodeChanged p (stepInterlace p odd pi))))

/-- One drained event (R254). -/
def handleEvent (p : Params) (pi : Pipe) (e : Event) : Pipe :=
  match e with
  | .line i q => { pi with slots := LineMap.insert pi.slots i q }
  | .frameDone odd => frameDone p odd pi

/-- `drain()` (R254): the whole queue is taken, then its events are processed in order. -/
def drain (p : Params) (pi : Pipe) : Pipe := pi.evq.foldl (handleEvent p) { pi with evq := [] }

/-! ## Frame delivery (R270 to R272; log 11) -/

/-- A call of `requestFrame` returns `f`. -/
def returnFrame (f : Option Frame) (s : State) : State :=
  (s.withPipe { s.pipe with waitLeft := none }).send (.frame f)

/-- One round of the loop of R270 by a call with `left` milliseconds of its timeout left: drain, then
return a frame, or nothing after a shutdown, or wait. How long the wait is until the next event is
drawn (R272); one that uses up the time left returns nothing. `none` says that the call goes on
waiting. -/
def frameRound (left : Nat) (s : State) : State × Option (Option Frame) :=
  let s := s.withPipe (drain s.par s.pipe)
  if 0 < s.pipe.frameReady then
    let f : Option Frame := some ⟨s.pipe.fb, s.pipe.viewport⟩
    (returnFrame f (s.withPipe { s.pipe with frameReady := 0 }), some f)
  else if s.sync.shutdown then (returnFrame none s, some none)
  else
    let d := s.drawMs
    if left ≤ d.1 then (returnFrame none d.2, some none)
    else (d.2.withPipe { d.2.pipe with waitLeft := some (left - d.1) }, none)

/-- An event was appended or the shutdown flag set: a waiting `requestFrame` is woken (R270, R322). When
the host context then runs is not fixed (R273): a draw says whether it runs its next round now. -/
def wakeFrame (s : State) : State :=
  match s.pipe.waitLeft with
  | none => s
  | some left =>
    let d := s.drawBool
    if d.1 then (frameRound left d.2).1 else d.2

/-! ## The producer (R250 to R253) -/

/-- An append by the machine context, under the queue's lock (R73), which wakes a waiting consumer. -/
def appendEvent (q : List Event) (s : State) : State :=
  wakeFrame (machineQueueOp (s.withPipe { s.pipe with evq := q }))

/-- The line count of R252. -/
def countLine (pi : Pipe) : Pipe :=
  { pi with vsyncCnt := if 0 < pi.vsyncCnt then pi.vsyncCnt + 1 else 0 }

/-- The field completion condition of R252. -/
def fieldComplete (p : Params) (pi : Pipe) : Bool :=
  decide (0 < pi.vsyncCnt) &&
    ((decide (p.vsyncMin ≤ pi.vsyncCnt) && !pi.vsyncState) || decide (p.vsyncMax ≤ pi.vsyncCnt))

/-- `submitScanline(i, p)` (R250). -/
def submitLine (i : Nat) (payload : Bytes) (s : State) : State :=
  if s.par.slots ≤ i then s
  else
    let s := appendEvent (supersede i s.pipe.evq ++ [.line i payload]) s
    let s := s.withPipe (countLine s.pipe)
    if fieldComplete s.par s.pipe then
      let s := s.withPipe { s.pipe with vsyncCnt := 0 }
      appendEvent (boundEvq s.par (s.pipe.evq ++ [.frameDone s.pipe.oddPending])) s
    else s

/-- `notifyFieldSync(level, slot)` (R253) on the pipeline. -/
def fieldSync (p : Params) (lev : Bool) (slot : Nat) (pi : Pipe) : Pipe :=
  if lev = pi.vsyncState then pi
  else
    let pi := { pi with vsyncState := lev }
    if lev = true ∧ pi.vsyncCnt = 0 then
      { pi with oddPending := decide (p.oddLo ≤ slot) && decide (slot ≤ p.oddHi), vsyncCnt := 1 }
    else pi

/-! ## Viewport (R268) -/

/-- The four bounds clamped to the raster (FB_H - 1 is 0 where FB_H is 0, log 36). -/
def clampViewport (p : Params) (v : Viewport) : Viewport :=
  ⟨min v.x1 (p.outW - 1), min v.y1 (p.fbH - 1), min v.x2 (p.outW - 1), min v.y2 (p.fbH - 1)⟩

/-- The clamped update is accepted. -/
def viewportOk (v : Viewport) : Bool := decide (v.x1 < v.x2) && decide (v.y1 < v.y2)

end Sys2Proof.Machine
end

