-- ==== Sys2Proof/Machine/Synchronizer.lean ====
section
/-! DEFINITION. The execution synchronizer of 44_sync_commands.md: the commands (R299 to R309), the
machine cycle (R314 to R317), the command queue (R290 to R292), the lock and shutdown (R320 to R323). -/

namespace Sys2Proof.Machine

/-! ## The commands, as `apply` carries them out (R293) -/

/-- R299. -/
def cmdReset (s : State) : State := machineReset (stopIfPlaying (stopIfRecording s))

/-- R300 and R301: only a real change of the key is made and recorded, and none during playback. -/
def cmdKey (down : Bool) (k : BitVec 7) (s : State) : State :=
  if s.demo.mode = .playing then s
  else if keyPressed s.keys k.toNat = down then s
  else
    let s := s.withKeys (setKey s.keys k down)
    if s.demo.mode = .recording then recordKey (if down then 0x01#8 else 0x02#8) k s else s

/-- R302. -/
def cmdSetVolume (v : Half) (s : State) : State := s.send (.volume v)

/-- R303. -/
def cmdTape (op : Byte) (s : State) : State := s.send (.tape op)

/-- R309. -/
def cmdMouseDelta (dx dy : Half) (s : State) : State := s.send (.mouse dx dy)

/-- R304. -/
def cmdSetPaused (b : Bool) (s : State) : State := s.withSync { s.sync with paused := b }

/-- R305. -/
def cmdRecordStart (s : State) : State := startRecording (stopIfRecording (stopIfPlaying s))

/-- R306. -/
def cmdRecordStop (s : State) : State := stopIfRecording s

/-- R307. -/
def cmdPlayStart (blob : Bytes) (s : State) : State := startPlayback blob (stopIfPlaying (stopIfRecording s))

/-- R308. -/
def cmdPlayStop (s : State) : State := stopIfPlaying s

/-- `apply(cmd)` (R293). -/
def applyCommand (s : State) (c : Command) : State :=
  match c with
  | .reset => cmdReset s
  | .keyDown k => cmdKey true k s
  | .keyUp k => cmdKey false k s
  | .setVolume v => cmdSetVolume v s
  | .tape op => cmdTape op s
  | .mouseDelta dx dy => cmdMouseDelta dx dy s
  | .setPaused b => cmdSetPaused b s
  | .demoRecordStart => cmdRecordStart s
  | .demoRecordStop => cmdRecordStop s
  | .demoPlayStart blob => cmdPlayStart blob s
  | .demoPlayStop => cmdPlayStop s

/-! ## The machine cycle (R316, R317) -/

/-- One call of the environment (R317; log 21). What a CPU's read returns leaves the block. -/
def callEnv (s : State) (c : EnvCall) : State :=
  match c with
  | .writeRegister a v => s.withChip (writeReg s.par a v s.chip)
  | .readRegister a => s.send (.cpuRead a (readReg s.par a s.chip s.keys))
  | .setInt1State b => s.withChip (setIntState 2 b s.chip)
  | .setInt2State b => s.withChip (setIntState 3 b s.chip)
  | .setTapeInput b => s.withChip { s.chip with tapeIn := b }
  | .setTapeFeedback b => s.withChip { s.chip with tapeFb := b }
  | .submitScanline i p => submitLine i p s
  | .notifyFieldSync l slot => s.withPipe (fieldSync s.par l slot s.pipe)

/-- `env_step()`: the calls of one machine cycle. -/
def envStep (calls : List EnvCall) (s : State) : State := calls.foldl callEnv s

/-- `machineCycle()` (R316). -/
def machineCycle (calls : List EnvCall) (s : State) : State :=
  let s := envStep calls s
  if s.sync.mcPhase + 1 = Config.mcPerChip then
    demoTick (advance (s.withSync { s.sync with mcPhase := 0 })).1
  else s.withSync { s.sync with mcPhase := s.sync.mcPhase + 1 }

/-- `n` machine cycles, each with its list of calls; a missing list is no call (log 21). -/
def machineCycles : Nat → List (List EnvCall) → State → State
  | 0, _, s => s
  | n + 1, env, s => machineCycles n env.tail (machineCycle (env.head?.getD []) s)

/-! ## Running (R314, R315, R323) -/

/-- `shutdownMachine()` (R323). -/
def shutdownMachine (s : State) : State :=
  let s := stopIfPlaying (stopIfRecording s)
  s.withSync { s.sync with cmdq := [], shutSeen := true }

/-- What the machine context reads of the shutdown flag: either value after it is set, until the
machine's next queue operation (R76; log 12). -/
def readShutdown (s : State) : Bool × State :=
  if s.sync.shutdown = false then (false, s)
  else if s.sync.shutSeen then (true, s)
  else s.drawBool

/-- The splice of the whole command queue under its lock (R73, R314). -/
def spliceQueue (s : State) : List Command × State :=
  (s.sync.cmdq, machineQueueOp (s.withSync { s.sync with cmdq := [] }))

/-- `total` of R314, in millionths of a machine cycle. -/
def budgetTotal (us : Nat) (s : State) : Nat := us * s.par.machineHz + s.sync.cycleRem

/-- The cycles of a budget (R314, R315). -/
def runBudget (us : Nat) (env : List (List EnvCall)) (s : State) : State :=
  if s.sync.paused then s
  else
    machineCycles (budgetTotal us s / 1000000) env
      (s.withSync { s.sync with cycleRem := budgetTotal us s % 1000000 })

/-- `runFor(us)` (R314) with the environment's calls of its cycles. The lock is tested first: a run while the host
holds it does nothing (R74; R314 (b); 92 D43), not the stops of R323 either (log 38). -/
def runFor (us : Nat) (env : List (List EnvCall)) (s : State) : State :=
  if s.sync.lockHeld then s
  else
    let r := readShutdown s
    if r.1 then shutdownMachine r.2
    else
      let q := spliceQueue r.2
      runBudget us env (q.1.foldl applyCommand q.2)

/-! ## The host's calls -/

/-- `enqueue(cmd)` (R290 to R292). -/
def enqueue (c : Command) (s : State) : State × Bool :=
  if s.sync.shutdown then (s, false)
  else if s.par.cmdqCap ≤ s.sync.cmdq.length then
    (s.withSync { s.sync with dropped := s.sync.dropped + 1 }, false)
  else (s.withSync { s.sync with cmdq := s.sync.cmdq ++ [c] }, true)

/-- `lock(timeoutMs)` (R320, R79): a draw on a free lock, for any timeout (log 10). -/
def lockMachine (_timeoutMs : Nat) (s : State) : State × Bool :=
  if s.sync.lockHeld then (s, false)
  else
    let d := s.drawBool
    if d.1 then (d.2.withSync { d.2.sync with lockHeld := true }, true) else (d.2, false)

/-- `unlock()` (R321): without the lock a no-op. It releases what the host wrote under the lock to the machine context,
the shutdown flag with it (R74; log 12). -/
def unlockMachine (s : State) : State :=
  if s.sync.lockHeld then
    s.withSync { s.sync with lockHeld := false, shutSeen := s.sync.shutSeen || s.sync.shutdown }
  else s

/-- `requestShutdown()` (R322). -/
def shutdownRequest (s : State) : State := wakeFrame (s.withSync { s.sync with shutdown := true })

/-- `requestFrame()` (R270). A wait that is still open when the host asks again has timed out (log 11). -/
def requestFrame (s : State) : State × Result :=
  let s := if s.pipe.waitLeft.isSome then returnFrame none s else s
  let r := frameRound s.par.frameTimeoutMs s
  match r.2 with
  | some f => (r.1, .frame f)
  | none => (r.1, .waiting)

/-- `setViewport` (R268): the clamped update, or none. -/
def setViewport (x1 y1 x2 y2 : Nat) (s : State) : State × Bool :=
  let v := clampViewport s.par ⟨x1, y1, x2, y2⟩
  if viewportOk v then (s.withPipe { s.pipe with viewport := v }, true) else (s, false)

end Sys2Proof.Machine
end

