-- ==== Sys2Proof/Machine/Commands.lean ====
section
/-! DEFINITION. The meanings of the commands (44_sync_commands.md R299 to R309). -/

namespace Sys2Proof.Machine

/-- A command applied at once, which only the machine context does (R293). DESIGN CHOICE (log 14): a command on the
port is applied whatever the shutdown flag is; a run that sees the flag discards its queue (R323). -/
def applied (f : State → State) (s : State) : Host.Outcome State Fault Refusal := guardedUnit unlockedCheck s f

/-- R299. -/
def execCmdReset (s : State) : Host.Outcome State Fault Refusal := applied cmdReset s

/-- R300. -/
def execCmdKeyDown (k : BitVec 7) (s : State) : Host.Outcome State Fault Refusal := applied (cmdKey true k) s

/-- R301. -/
def execCmdKeyUp (k : BitVec 7) (s : State) : Host.Outcome State Fault Refusal := applied (cmdKey false k) s

/-- R302. -/
def execCmdSetVolume (v : Half) (s : State) : Host.Outcome State Fault Refusal := applied (cmdSetVolume v) s

/-- R303. -/
def execCmdTape (op : Byte) (s : State) : Host.Outcome State Fault Refusal := applied (cmdTape op) s

/-- R309. -/
def execCmdMouseDelta (dx dy : Half) (s : State) : Host.Outcome State Fault Refusal := applied (cmdMouseDelta dx dy) s

/-- R304. -/
def execCmdSetPaused (b : Bool) (s : State) : Host.Outcome State Fault Refusal := applied (cmdSetPaused b) s

/-- R305. -/
def execCmdDemoRecordStart (s : State) : Host.Outcome State Fault Refusal := applied cmdRecordStart s

/-- R306. -/
def execCmdDemoRecordStop (s : State) : Host.Outcome State Fault Refusal := applied cmdRecordStop s

/-- R307. -/
def execCmdDemoPlayStart (blob : Bytes) (s : State) : Host.Outcome State Fault Refusal := applied (cmdPlayStart blob) s

/-- R308. -/
def execCmdDemoPlayStop (s : State) : Host.Outcome State Fault Refusal := applied cmdPlayStop s

end Sys2Proof.Machine
end

