-- ==== Sys2Proof/Machine/DemoRecords.lean ====
section
/-! DEFINITION. The meanings of the demo records (45_demo_log.md R337 to R340). -/

namespace Sys2Proof.Machine

/-- A demo record at its dispatch (log 15): the delta has been counted down by the player, so it changes
nothing here. Only the machine context dispatches (R402). DESIGN CHOICE (log 15): a record on the port is dispatched in
every mode, the player dispatches only while playing (R348). -/
def demoEvent (f : State → State) (s : State) : Host.Outcome State Fault Refusal := guardedUnit unlockedCheck s f

/-- R337. -/
def execDemoEnd (_delta : BitVec 63) (_payload : Bytes) (s : State) : Host.Outcome State Fault Refusal :=
  demoEvent endEvent s

/-- R338. -/
def execDemoKeyDown (_delta : BitVec 63) (payload : Bytes) (s : State) : Host.Outcome State Fault Refusal :=
  demoEvent (keyEvent true payload) s

/-- R339. -/
def execDemoKeyUp (_delta : BitVec 63) (payload : Bytes) (s : State) : Host.Outcome State Fault Refusal :=
  demoEvent (keyEvent false payload) s

/-- R340. -/
def execDemoUnknown (_delta : BitVec 63) (_type : Byte) (_payload : Bytes) (s : State) :
    Host.Outcome State Fault Refusal := demoEvent unknownEvent s

end Sys2Proof.Machine
end

