-- ==== Sys2Proof/Machine/Interface.lean ====
section
/-! DEFINITION. The meanings of the interface operations (30_encoding.md R113). -/

namespace Sys2Proof.Machine

/-- R172, R205: the sample is returned and goes to the resampler. -/
def execAdvanceOneCycle (s : State) : Host.Outcome State Fault Refusal :=
  guarded unlockedCheck s fun s => ((advance s).1, .sample (advance s).2.1 (advance s).2.2)

/-- R130. -/
def execWriteRegister (addr value : Byte) (s : State) : Host.Outcome State Fault Refusal :=
  guardedUnit accessCheck s fun s => s.withChip (writeReg s.par addr value s.chip)

/-- R130. -/
def execReadRegister (addr : Byte) (s : State) : Host.Outcome State Fault Refusal :=
  guarded accessCheck s fun s => (s, .byte (readReg s.par addr s.chip s.keys))

/-- R211. -/
def execSetInt1State (b : Bool) (s : State) : Host.Outcome State Fault Refusal :=
  guardedUnit unlockedCheck s fun s => s.withChip (setIntState 2 b s.chip)

/-- R212. -/
def execSetInt2State (b : Bool) (s : State) : Host.Outcome State Fault Refusal :=
  guardedUnit unlockedCheck s fun s => s.withChip (setIntState 3 b s.chip)

/-- R213. -/
def execSetTapeInput (b : Bool) (s : State) : Host.Outcome State Fault Refusal :=
  guardedUnit unlockedCheck s fun s => s.withChip { s.chip with tapeIn := b }

/-- R214. -/
def execSetTapeFeedback (b : Bool) (s : State) : Host.Outcome State Fault Refusal :=
  guardedUnit unlockedCheck s fun s => s.withChip { s.chip with tapeFb := b }

/-- R250. -/
def execSubmitScanline (i : Nat) (payload : Bytes) (s : State) : Host.Outcome State Fault Refusal :=
  guardedUnit unlockedCheck s (submitLine i payload)

/-- R253. -/
def execNotifyFieldSync (lev : Bool) (slot : Nat) (s : State) : Host.Outcome State Fault Refusal :=
  guardedUnit unlockedCheck s fun s => s.withPipe (fieldSync s.par lev slot s.pipe)

/-- R270. -/
def execRequestFrame (s : State) : Host.Outcome State Fault Refusal := guarded hostCheck s requestFrame

/-- R265. -/
def execRequestAutodetect (s : State) : Host.Outcome State Fault Refusal :=
  guardedUnit hostCheck s fun s => s.withPipe { s.pipe with autodetectReq := true }

/-- R268. -/
def execSetViewport (x1 y1 x2 y2 : Nat) (s : State) : Host.Outcome State Fault Refusal :=
  guarded hostCheck s fun s => ((setViewport x1 y1 x2 y2 s).1, .bool (setViewport x1 y1 x2 y2 s).2)

/-- R290 to R292. -/
def execEnqueue (c : Command) (s : State) : Host.Outcome State Fault Refusal :=
  guarded hostCheck s fun s => ((enqueue c s).1, .bool (enqueue c s).2)

/-- R314. While the host holds the lock it does nothing. -/
def execRunFor (budgetUs : Nat) (env : List (List EnvCall)) (s : State) : Host.Outcome State Fault Refusal :=
  guardedUnit machineCheck s (runFor budgetUs env)

/-- R320. -/
def execLock (timeoutMs : Nat) (s : State) : Host.Outcome State Fault Refusal :=
  guarded hostCheck s fun s => ((lockMachine timeoutMs s).1, .bool (lockMachine timeoutMs s).2)

/-- R321. -/
def execUnlock (s : State) : Host.Outcome State Fault Refusal := guardedUnit hostCheck s unlockMachine

/-- R322. -/
def execRequestShutdown (s : State) : Host.Outcome State Fault Refusal := guardedUnit hostCheck s shutdownRequest

/-- R382. -/
def execSaveSnapshot (s : State) : Host.Outcome State Fault Refusal :=
  guarded lockedCheck s fun s => (s, .blob (saveSnapshot s))

/-- R383. -/
def execLoadSnapshot (blob : Bytes) (s : State) : Host.Outcome State Fault Refusal :=
  guarded lockedCheck s fun s => ((loadSnapshot blob s).1, .load (loadSnapshot blob s).2)

/-- R354. -/
def execDemoBlob (s : State) : Host.Outcome State Fault Refusal :=
  guarded lockedCheck s fun s => (s, .blob (demoBlob s))

end Sys2Proof.Machine
end

