-- ==== Sys2Proof/Machine/RegisterReads.lean ====
section
/-! DEFINITION. The meanings of the register reads (40_chip_registers.md R143 to R149). -/

namespace Sys2Proof.Machine

/-- A register read: it changes no state (R150) and returns the byte (log 7). The machine context without the lock
and the host under it may make it (R402). -/
def regRead (v : Byte) (s : State) : Host.Outcome State Fault Refusal := guarded accessCheck s fun s => (s, .byte v)

/-- R143: write-only addresses read as the sentinel. -/
def execRdWo (_off : BitVec 4) (s : State) : Host.Outcome State Fault Refusal := regRead s.par.sentinel s

/-- R144. -/
def execRdPage (k : Fin 4) (s : State) : Host.Outcome State Fault Refusal := regRead (s.chip.page.get k) s

/-- R145. -/
def execRdIntStat (s : State) : Host.Outcome State Fault Refusal := regRead (intStatus s.chip) s

/-- R146. -/
def execRdKbdCol (s : State) : Host.Outcome State Fault Refusal := regRead (keyColumns s.chip s.keys) s

/-- R147. -/
def execRdTape (s : State) : Host.Outcome State Fault Refusal := regRead (tapeByte s.chip) s

/-- R148. -/
def execRdReserved (_off : BitVec 5) (s : State) : Host.Outcome State Fault Refusal := regRead s.par.sentinel s

/-- R149. -/
def execRdUnmapped (_addr : Byte) (s : State) : Host.Outcome State Fault Refusal := regRead s.par.sentinel s

end Sys2Proof.Machine
end

