-- ==== Sys2Proof/Machine/RegisterWrites.lean ====
section
/-! DEFINITION. The meanings of the register writes (40_chip_registers.md R131 to R142). -/

namespace Sys2Proof.Machine

/-- A register write: zero chip cycles, at once (R152, R430), no result. The machine context without the lock and
the host under it may make it (R402). -/
def regWrite (f : Chip → Chip) (s : State) : Host.Outcome State Fault Refusal :=
  guardedUnit accessCheck s fun s => s.withChip (f s.chip)

/-- R131, channel 0. -/
def execWrFrqLo0 (v : Byte) (s : State) : Host.Outcome State Fault Refusal := regWrite (wrFrqLo 0 v) s

/-- R131, channel 1. -/
def execWrFrqLo1 (v : Byte) (s : State) : Host.Outcome State Fault Refusal := regWrite (wrFrqLo 1 v) s

/-- R131, channel 2. -/
def execWrFrqLo2 (v : Byte) (s : State) : Host.Outcome State Fault Refusal := regWrite (wrFrqLo 2 v) s

/-- R132, channel 0. -/
def execWrToneCtl0 (v : Byte) (s : State) : Host.Outcome State Fault Refusal := regWrite (wrToneCtl 0 v) s

/-- R132, channel 1. -/
def execWrToneCtl1 (v : Byte) (s : State) : Host.Outcome State Fault Refusal := regWrite (wrToneCtl 1 v) s

/-- R132, channel 2. -/
def execWrToneCtl2 (v : Byte) (s : State) : Host.Outcome State Fault Refusal := regWrite (wrToneCtl 2 v) s

/-- R133. -/
def execWrNoiseCtl (v : Byte) (s : State) : Host.Outcome State Fault Refusal := regWrite (wrNoiseCtl v) s

/-- R134. -/
def execWrSysCtl (v : Byte) (s : State) : Host.Outcome State Fault Refusal := regWrite (wrSysCtl v) s

/-- R135. -/
def execWrVolL (c : Fin 4) (v : Byte) (s : State) : Host.Outcome State Fault Refusal := regWrite (wrVolL c v) s

/-- R136. -/
def execWrVolR (c : Fin 4) (v : Byte) (s : State) : Host.Outcome State Fault Refusal := regWrite (wrVolR c v) s

/-- R137. -/
def execWrPage (k : Fin 4) (v : Byte) (s : State) : Host.Outcome State Fault Refusal := regWrite (wrPage k v) s

/-- R138. -/
def execWrIntCtl (v : Byte) (s : State) : Host.Outcome State Fault Refusal := regWrite (wrIntCtl v) s

/-- R139. -/
def execWrKbdRow (v : Byte) (s : State) : Host.Outcome State Fault Refusal := regWrite (wrKbdRow v) s

/-- R140: "the write is ignored". -/
def execWrB6 (v : Byte) (s : State) : Host.Outcome State Fault Refusal := regWrite (wrIgnored v) s

/-- R141: ignored. -/
def execWrReserved (_off : BitVec 5) (v : Byte) (s : State) : Host.Outcome State Fault Refusal :=
  regWrite (wrIgnored v) s

/-- R142: ignored. -/
def execWrUnmapped (_addr v : Byte) (s : State) : Host.Outcome State Fault Refusal := regWrite (wrIgnored v) s

end Sys2Proof.Machine
end

