-- ==== Sys2Proof/Machine/ScanlineTags.lean ====
section
/-! DEFINITION. The meanings of the scanline tags (42_scanline_decoder.md R221 to R229). -/

namespace Sys2Proof.Machine

/-- A tag in the line decoder (log 16): nothing but its working state changes. -/
def scanTag (f : Params → LineDec → LineDec) (s : State) : Host.Outcome State Fault Refusal :=
  done (s.withDec (f s.par s.dec)) .unit

/-- R221. -/
def execBlank (s : State) : Host.Outcome State Fault Refusal := scanTag (emit · pixBlank) s

/-- R222. -/
def execFill1 (c0 : Byte) (s : State) : Host.Outcome State Fault Refusal := scanTag (emit · (pixFill1 c0)) s

/-- R223. -/
def execFill2 (c0 c1 : Byte) (s : State) : Host.Outcome State Fault Refusal := scanTag (emit · (pixFill2 c0 c1)) s

/-- R224. -/
def execFill4 (c0 c1 c2 c3 : Byte) (s : State) : Host.Outcome State Fault Refusal :=
  scanTag (emit · (pixFill4 c0 c1 c2 c3)) s

/-- R226. -/
def execFill8 (c0 c1 c2 c3 c4 c5 c6 c7 : Byte) (s : State) : Host.Outcome State Fault Refusal :=
  scanTag (emit · (pixFill8 c0 c1 c2 c3 c4 c5 c6 c7)) s

/-- R227. -/
def execBmp8 (c0 c1 bits : Byte) (s : State) : Host.Outcome State Fault Refusal := scanTag (emit · (pixBmp8 c0 c1 bits)) s

/-- R228. -/
def execBmp16 (c0a c1a bitsA c0b c1b bitsB : Byte) (s : State) : Host.Outcome State Fault Refusal :=
  scanTag (emit · (pixBmp16 c0a c1a bitsA c0b c1b bitsB)) s

/-- R229: an unknown tag ends the data. -/
def execUnknownTag (_tag : Byte) (s : State) : Host.Outcome State Fault Refusal := scanTag endOfData s

end Sys2Proof.Machine
end

