-- ==== Sys2Proof/Machine/SnapshotChunks.lean ====
section
/-! DEFINITION. The meanings of the snapshot chunks (46_snapshot.md R373 to R380). -/

namespace Sys2Proof.Machine

/-- A chunk at the loader (log 17): nothing but the loader's working state changes. -/
def snapChunk (f : Loader → Loader) (s : State) : Host.Outcome State Fault Refusal :=
  done (s.withLoader (f s.loader)) .unit

/-- R373 to R375. -/
def execChunkChip (payload : Bytes) (crc : Word) (s : State) : Host.Outcome State Fault Refusal :=
  snapChunk (loadChip payload crc) s

/-- R377. -/
def execChunkDemo (payload : Bytes) (crc : Word) (s : State) : Host.Outcome State Fault Refusal :=
  snapChunk (loadDemo payload crc) s

/-- R378. -/
def execChunkMach (payload : Bytes) (crc : Word) (s : State) : Host.Outcome State Fault Refusal :=
  snapChunk (loadMach payload crc) s

/-- R379. -/
def execChunkEnd (n : Word) (trailing : Bytes) (s : State) : Host.Outcome State Fault Refusal :=
  snapChunk (loadEnd n trailing) s

/-- R380. -/
def execChunkUnknown (_tag : Word) (payload : Bytes) (crc : Word) (s : State) :
    Host.Outcome State Fault Refusal := snapChunk (loadUnknown payload crc) s

end Sys2Proof.Machine
end

