-- ==== Sys2Proof/Machine/Dispatch.lean ====
section
/-! DEFINITION. The dispatch: one arm per instruction. -/

namespace Sys2Proof.Machine

def exec (i : Instr) (s : State) : Host.Outcome State Fault Refusal :=
  match i with
  | .wrFrqLo0 v => Sys2Proof.Machine.execWrFrqLo0 v s
  | .wrFrqLo1 v => Sys2Proof.Machine.execWrFrqLo1 v s
  | .wrFrqLo2 v => Sys2Proof.Machine.execWrFrqLo2 v s
  | .wrToneCtl0 v => Sys2Proof.Machine.execWrToneCtl0 v s
  | .wrToneCtl1 v => Sys2Proof.Machine.execWrToneCtl1 v s
  | .wrToneCtl2 v => Sys2Proof.Machine.execWrToneCtl2 v s
  | .wrNoiseCtl v => Sys2Proof.Machine.execWrNoiseCtl v s
  | .wrSysCtl v => Sys2Proof.Machine.execWrSysCtl v s
  | .wrVolL c v => Sys2Proof.Machine.execWrVolL c v s
  | .wrVolR c v => Sys2Proof.Machine.execWrVolR c v s
  | .wrPage k v => Sys2Proof.Machine.execWrPage k v s
  | .wrIntCtl v => Sys2Proof.Machine.execWrIntCtl v s
  | .wrKbdRow v => Sys2Proof.Machine.execWrKbdRow v s
  | .wrB6 v => Sys2Proof.Machine.execWrB6 v s
  | .wrReserved off v => Sys2Proof.Machine.execWrReserved off v s
  | .wrUnmapped addr v => Sys2Proof.Machine.execWrUnmapped addr v s
  | .rdWo off => Sys2Proof.Machine.execRdWo off s
  | .rdPage k => Sys2Proof.Machine.execRdPage k s
  | .rdIntStat => Sys2Proof.Machine.execRdIntStat s
  | .rdKbdCol => Sys2Proof.Machine.execRdKbdCol s
  | .rdTape => Sys2Proof.Machine.execRdTape s
  | .rdReserved off => Sys2Proof.Machine.execRdReserved off s
  | .rdUnmapped addr => Sys2Proof.Machine.execRdUnmapped addr s
  | .blank => Sys2Proof.Machine.execBlank s
  | .fill1 c0 => Sys2Proof.Machine.execFill1 c0 s
  | .fill2 c0 c1 => Sys2Proof.Machine.execFill2 c0 c1 s
  | .fill4 c0 c1 c2 c3 => Sys2Proof.Machine.execFill4 c0 c1 c2 c3 s
  | .fill8 c0 c1 c2 c3 c4 c5 c6 c7 => Sys2Proof.Machine.execFill8 c0 c1 c2 c3 c4 c5 c6 c7 s
  | .bmp8 c0 c1 bits => Sys2Proof.Machine.execBmp8 c0 c1 bits s
  | .bmp16 c0a c1a bitsA c0b c1b bitsB => Sys2Proof.Machine.execBmp16 c0a c1a bitsA c0b c1b bitsB s
  | .unknownTag tag => Sys2Proof.Machine.execUnknownTag tag s
  | .demoEnd delta payload => Sys2Proof.Machine.execDemoEnd delta payload s
  | .demoKeyDown delta payload => Sys2Proof.Machine.execDemoKeyDown delta payload s
  | .demoKeyUp delta payload => Sys2Proof.Machine.execDemoKeyUp delta payload s
  | .demoUnknown delta ty payload => Sys2Proof.Machine.execDemoUnknown delta ty payload s
  | .chunkChip payload crc => Sys2Proof.Machine.execChunkChip payload crc s
  | .chunkDemo payload crc => Sys2Proof.Machine.execChunkDemo payload crc s
  | .chunkMach payload crc => Sys2Proof.Machine.execChunkMach payload crc s
  | .chunkEnd n trailing => Sys2Proof.Machine.execChunkEnd n trailing s
  | .chunkUnknown tag payload crc => Sys2Proof.Machine.execChunkUnknown tag payload crc s
  | .cmdReset => Sys2Proof.Machine.execCmdReset s
  | .cmdKeyDown k => Sys2Proof.Machine.execCmdKeyDown k s
  | .cmdKeyUp k => Sys2Proof.Machine.execCmdKeyUp k s
  | .cmdSetVolume v => Sys2Proof.Machine.execCmdSetVolume v s
  | .cmdTape op => Sys2Proof.Machine.execCmdTape op s
  | .cmdMouseDelta dx dy => Sys2Proof.Machine.execCmdMouseDelta dx dy s
  | .cmdSetPaused b => Sys2Proof.Machine.execCmdSetPaused b s
  | .cmdDemoRecordStart => Sys2Proof.Machine.execCmdDemoRecordStart s
  | .cmdDemoRecordStop => Sys2Proof.Machine.execCmdDemoRecordStop s
  | .cmdDemoPlayStart blob => Sys2Proof.Machine.execCmdDemoPlayStart blob s
  | .cmdDemoPlayStop => Sys2Proof.Machine.execCmdDemoPlayStop s
  | .advanceOneCycle => Sys2Proof.Machine.execAdvanceOneCycle s
  | .writeRegister addr value => Sys2Proof.Machine.execWriteRegister addr value s
  | .readRegister addr => Sys2Proof.Machine.execReadRegister addr s
  | .setInt1State b => Sys2Proof.Machine.execSetInt1State b s
  | .setInt2State b => Sys2Proof.Machine.execSetInt2State b s
  | .setTapeInput b => Sys2Proof.Machine.execSetTapeInput b s
  | .setTapeFeedback b => Sys2Proof.Machine.execSetTapeFeedback b s
  | .submitScanline line payload => Sys2Proof.Machine.execSubmitScanline line payload s
  | .notifyFieldSync lev slot => Sys2Proof.Machine.execNotifyFieldSync lev slot s
  | .requestFrame => Sys2Proof.Machine.execRequestFrame s
  | .requestAutodetect => Sys2Proof.Machine.execRequestAutodetect s
  | .setViewport x1 y1 x2 y2 => Sys2Proof.Machine.execSetViewport x1 y1 x2 y2 s
  | .enqueue c => Sys2Proof.Machine.execEnqueue c s
  | .runFor budgetUs env => Sys2Proof.Machine.execRunFor budgetUs env s
  | .lock timeoutMs => Sys2Proof.Machine.execLock timeoutMs s
  | .unlock => Sys2Proof.Machine.execUnlock s
  | .requestShutdown => Sys2Proof.Machine.execRequestShutdown s
  | .saveSnapshot => Sys2Proof.Machine.execSaveSnapshot s
  | .loadSnapshot blob => Sys2Proof.Machine.execLoadSnapshot blob s
  | .demoBlob => Sys2Proof.Machine.execDemoBlob s

end Sys2Proof.Machine
end

