-- ==== Sys2Proof/Machine/Port.lean ====
section
/-! DEFINITION. The input port, from which a step takes its instruction (logs 1, 4, 5): what a new item sets up,
what of an item is still read after an instruction, and the effect of an item that ends inside one. -/

namespace Sys2Proof.Machine

/-- What the start of a new item sets up: a payload's first tag meets a fresh line decoder (R220), a
snapshot's first chunk a fresh loader (R383). -/
def openItem (it : Item) (s : State) : State :=
  if it.first then
    match it.fmt with
    | .scanlineTag => s.withDec (LineDec.start s.par)
    | .snapshotChunk => s.withLoader Loader.start
    | .regWrite | .regRead | .demoRecord | .command | .interface => s
  else s

/-- The record ends its log: the end event (R337) or a decode error (R338 to R340), behind which nothing is read. -/
def endsLog (i : Instr) : Bool :=
  match i with
  | .demoEnd _ _ | .demoUnknown _ _ _ => true
  | .demoKeyDown _ payload | .demoKeyUp _ payload =>
    match payload with
    | [k] => k.getLsbD 7
    | _ => true
  | _ => false

/-- What is still read of an item after its instruction `i`, with `rest` behind it. A payload is read until its
row is full or its data ends (R220, R229, R230, R234), a log until a record ends it (R337, R340), a snapshot until
its loader stops (R383). -/
def leftover (i : Instr) (rest : Bytes) (s : State) : Bytes :=
  match i.format with
  | .scanlineTag => if (tagStep s.par i s.dec).finished s.par then [] else rest
  | .demoRecord => if endsLog i then [] else rest
  | .snapshotChunk => if (chunkStep i s.loader).status = .running then rest else []
  | .regWrite | .regRead | .command | .interface => rest

/-- The port after an instruction of item `it` that left `rest` of it, before the items `later`. -/
def portAfter (it : Item) (rest : Bytes) (later : List Item) : List Item :=
  match rest with
  | [] => later
  | b :: t => { it with first := false, bytes := b :: t } :: later

/-- The state in which the call runs that step reads from item `it` with `rest` left. -/
def fetched (it : Item) (rest : Bytes) (later : List Item) (s : State) : State :=
  ((openItem it s).withInput (portAfter it rest later)).withCaller it.caller

/-- The decode error of a log that ends inside a record (R333, R336, R340). -/
def recordError (bs : Bytes) : FaultCode :=
  match varintDecode bs with
  | .error e => e
  | .ok _ => .demoTruncated

/-- An item whose bytes hold no whole instruction: cut-short tag operands end the row's data (R225), a cut-short
record is a decode error (R340), a cut-short chunk is `Truncated` (R370). For the other formats there is no such
call: R118 "cannot be built". -/
def cutShort (it : Item) (s : State) : Host.Outcome State Fault Refusal :=
  match it.fmt with
  | .scanlineTag => done (s.withDec (endOfData s.par s.dec)) .unit
  | .demoRecord => guardedUnit unlockedCheck s (stopPlayback (some (recordError it.bytes)))
  | .snapshotChunk => done (s.withLoader (loadCut s.loader)) .unit
  | .regWrite | .regRead | .command | .interface => .refused .undecodable

end Sys2Proof.Machine
end

