-- ==== Sys2Proof/Machine/Step.lean ====
section
/-! DEFINITION. The step. The block fetches no program of its own (00_scope.md R8, 20_memory.md R80): its
sequencing is the calls made on it. The input port holds those calls, and a step takes the first
instruction of the first item off the port and runs it (logs 1, 4, 5). -/

namespace Sys2Proof.Machine

/-- One step: a configuration that breaks R10 is refused; with nothing on the port the block waits
(R425: "nothing runs until the host's first `runFor`"); otherwise the first instruction of the first item runs, or
an item that ends inside one has the effect of `cutShort`. -/
def step (s : State) : Host.Outcome State Fault Refusal :=
  if s.par.valid then
    match s.input with
    | [] => .next s
    | it :: later =>
      match decode s.par it.fmt it.bytes with
      | none => cutShort it (fetched it [] later s)
      | some (i, rest) => exec i (fetched it (leftover i rest (openItem it s)) later s)
  else .refused .badConfig

/-- The item of a table word: exactly the bytes its instruction takes, a call of the machine context. -/
def tableItem (par : Params) (nbits w : Nat) : Item :=
  let bs := tableBytes nbits w
  match decode par (tableFormat nbits w) bs with
  | none => ⟨.machine, tableFormat nbits w, true, bs⟩
  | some (_, rest) => ⟨.machine, tableFormat nbits w, true, bs.take (bs.length - rest.length)⟩

/-- The state with a table word's instruction next on the input port (log 1, log 3). -/
def State.withFetchWord (s : State) (nbits w : Nat) : State := s.withInput (tableItem s.par nbits w :: s.input)

end Sys2Proof.Machine
end

