-- ==== Sys2Proof/Safety.lean ====
section
/-! DEFINITION. What the spec promises of every state: the invariants of the parts, their conjunction, and
what counts as a safe run. -/

namespace Sys2Proof.Machine

/-- The polynomial counters stay inside their tables (41_chip_cycle.md R200; R25). -/
abbrev Chip.Ranges (ch : Chip) : Prop :=
  ch.p4 < 15 ∧ ch.p5 < 31 ∧ ch.p7 < 127 ∧ ch.pv < vlenLen ch.vlsel

/-- The synchronizer's bounds: the queue never outgrows its capacity (44_sync_commands.md R291), the
remainder is below a whole cycle (R315) and the phase below two (R316). -/
abbrev Sync.Bounded (p : Params) (y : Sync) : Prop :=
  y.cmdq.length ≤ p.cmdqCap ∧ y.cycleRem < 1000000 ∧ y.mcPhase < Config.mcPerChip

/-- The four pixel planes are in canonical form. -/
abbrev Pipe.PlanesWf (pi : Pipe) : Prop :=
  pi.decoded.wf ∧ pi.rows0.wf ∧ pi.rows1.wf ∧ pi.fb.wf

/-- Byte `y * P_OUT_W + x` of a plane for each of the row's bytes: row i holds the pixels of `row`. -/
abbrev RowIs (p : Params) (m : Memory) (i : Nat) (row : Bytes) : Prop :=
  ∀ x, x < p.outW → pixelAt p m i x = row.getD x Config.blankByte

/-- The unchanged-line cache is transparent (43_frame_pipeline.md R259): a cached payload's row is what
decoding it again gives. -/
abbrev Pipe.CacheOk (p : Params) (pi : Pipe) : Prop :=
  ∀ i payload, LineMap.find pi.lastPayload i = some payload → RowIs p pi.decoded i (decodeLine p payload)

/-- The events behind the last FrameDone of a queue: the field that is still being received. -/
def afterDone : List Event → List Event
  | [] => []
  | e :: t => if t.any Event.isDone then afterDone t else if e.isDone then t else e :: t

/-- A queued line's index is below `P_SLOTS` (43_frame_pipeline.md R250), and behind the last FrameDone
each index occurs once at most (10_state.md R44, R251). -/
abbrev QueueOk (p : Params) (q : List Event) : Prop :=
  (∀ i payload, Event.line i payload ∈ q → i < p.slots) ∧
  ∀ i, ((afterDone q).filter (Event.isLine i)).length ≤ 1

/-- The viewport lies in the raster (R268). -/
abbrev Viewport.InRaster (p : Params) (v : Viewport) : Prop :=
  v.x1 ≤ v.x2 ∧ v.x2 ≤ p.outW - 1 ∧ v.y1 ≤ v.y2 ∧ v.y2 ≤ p.fbH - 1

/-- A waiting `requestFrame` has some of its timeout left and never more than all of it (R270, R272). -/
abbrev WaitOk (p : Params) (w : Option Nat) : Prop := ∀ left, w = some left → 0 < left ∧ left ≤ p.frameTimeoutMs

/-- The slots and the payload cache are in canonical form. -/
abbrev Pipe.MapsWf (pi : Pipe) : Prop := pi.slots.wf ∧ pi.lastPayload.wf

/-- The bounds of the small fields: the synchronizer's, the line decoder's row of `P_OUT_W` bytes (R220), the
viewport, the wait, and the canonical form of the line maps. -/
abbrev State.Bounds (s : State) : Prop :=
  s.sync.Bounded s.par ∧ s.dec.row.length = s.par.outW ∧ s.pipe.viewport.InRaster s.par ∧
    WaitOk s.par s.pipe.waitLeft ∧ s.pipe.MapsWf

/-- The machine context calls and the host does not hold the lock (R74, R402; log 13). -/
abbrev State.MachineFree (s : State) : Prop := s.caller = .machine ∧ s.sync.lockHeld = false

/-- The host calls and holds the lock (R75, R402). -/
abbrev State.HostHolding (s : State) : Prop := s.caller = .host ∧ s.sync.lockHeld = true

/-- The calling context may access the registers: the machine context without the lock, the host under it (R402). -/
abbrev State.MayAccess (s : State) : Prop := s.MachineFree ∨ s.HostHolding

/-- The register accesses. -/
abbrev RegisterAccess (i : Instr) : Prop :=
  i.format = .regWrite ∨ i.format = .regRead ∨ (∃ a v, i = .writeRegister a v) ∨ ∃ a, i = .readRegister a

/-- The machine context's calls but `runFor` and the register accesses (R402), with the commands and the demo
records, which it applies and dispatches (R293, R348). -/
abbrev MachineCall (i : Instr) : Prop :=
  i.format = .demoRecord ∨ i.format = .command ∨ i = .advanceOneCycle ∨ (∃ b, i = .setInt1State b) ∨
    (∃ b, i = .setInt2State b) ∨ (∃ b, i = .setTapeInput b) ∨ (∃ b, i = .setTapeFeedback b) ∨
    (∃ k p, i = .submitScanline k p) ∨ ∃ l k, i = .notifyFieldSync l k

/-- The host's calls that need no lock (R402). -/
abbrev HostCall (i : Instr) : Prop :=
  i = .requestFrame ∨ i = .requestAutodetect ∨ (∃ a b c d, i = .setViewport a b c d) ∨ (∃ c, i = .enqueue c) ∨
    (∃ ms, i = .lock ms) ∨ i = .unlock ∨ i = .requestShutdown

/-- The host's calls that need the lock (R75, R402). -/
abbrev LockedCall (i : Instr) : Prop := i = .saveSnapshot ∨ (∃ b, i = .loadSnapshot b) ∨ i = .demoBlob

/-- `t` is a state that waking the waiting `requestFrame` of `s` may leave (R260, R270, R272, R322): with none waiting
`s` itself; else the host context has not run yet, or its round drained the queue and returned a ready frame, returned
nothing after a shutdown or because its time is used up, or goes on waiting with no more time than before (log 11). -/
abbrev Woken (s t : State) : Prop :=
  (s.pipe.waitLeft = none → t = s) ∧
  ∀ left, s.pipe.waitLeft = some left →
    let p := drain s.par s.pipe
    t = { s with draws := s.draws + 1 } ∨
    (0 < p.frameReady ∧ t = { s with
      pipe := { p with frameReady := 0, waitLeft := none }
      outbox := .frame (some ⟨p.fb, p.viewport⟩) :: s.outbox
      draws := s.draws + 1 }) ∨
    (p.frameReady = 0 ∧ s.sync.shutdown = true ∧ t = { s with
      pipe := { p with waitLeft := none }, outbox := .frame none :: s.outbox, draws := s.draws + 1 }) ∨
    (p.frameReady = 0 ∧ s.sync.shutdown = false ∧
      (t = { s with
          pipe := { p with waitLeft := none }, outbox := .frame none :: s.outbox, draws := s.draws + 2 } ∨
        ∃ left', 0 < left' ∧ left' ≤ left ∧
          t = { s with pipe := { p with waitLeft := some left' }, draws := s.draws + 2 }))

/-- A running line decoder with room left in its row (R220). -/
abbrev State.Decoding (s : State) : Prop :=
  s.dec.stopped = false ∧ s.dec.x < s.par.outW ∧ s.dec.row.length = s.par.outW

/-- Tag `i` completes on every running decoder and writes pixel j of its 16 as `pix j`: the pixels from
`x` on that lie below the width, and nothing else but `x` (42_scanline_decoder.md R220, R230). -/
abbrev WritesPixels (i : Instr) (pix : Nat → Byte) : Prop :=
  ∀ s : State, s.Decoding → ∃ t, exec i s = .next t ∧ t = { s with dec := t.dec, result := .unit } ∧
    t.dec.x = s.dec.x + 16 ∧ t.dec.stopped = false ∧ t.dec.row.length = s.par.outW ∧
    ∀ k, k < s.par.outW → t.dec.row.getD k Config.blankByte =
      if s.dec.x ≤ k ∧ k < s.dec.x + 16 then pix (k - s.dec.x) else s.dec.row.getD k Config.blankByte

/-- The demo layer after `stopRecording` where it was recording (45_demo_log.md R346), else as it was. -/
abbrev Demo.recordingStopped (d : Demo) : Demo :=
  if d.mode = .recording then
    { d with recBuf := d.recBuf ++ [0x00#8, 0x00#8, 0x00#8],
             committed := some (d.recBuf ++ [0x00#8, 0x00#8, 0x00#8]), mode := .idle }
  else d

/-- The demo layer after both stops: a recording is committed (R346), playback ends with no error (R350). -/
abbrev Demo.bothStopped (d : Demo) : Demo :=
  if d.mode = .playing then { d with mode := .idle, lastError := none } else d.recordingStopped

/-- A safe outcome: the block never stops with a fault after construction (60_exceptions.md R392, R394). -/
abbrev SafeOutcome (o : Host.Outcome State Fault Refusal) : Prop := ∀ f, o ≠ .fault f

end Sys2Proof.Machine
end

