-- ==== Sys2Proof/Certificates/Slice0/Obligations.lean ====
section
/-! DEFINITION. The statements for the provers. Where a statement gives the next state as a record update of
`s`, every field it does not name is unchanged: the frame is part of the equation. The fields `result`,
`outbox`, `draws`, `shutSeen`, `waitLeft` and `caller` are the model's own (logs 7 to 13): what a statement says of
them is the model's choice, not a rule's. The conditions on who calls, `MachineFree`, `HostHolding` and `MayAccess`
(Safety.lean), are those of R74, R75 and R402. -/

section

open Sys2Proof Sys2Proof.Machine

/-! ## Register writes -/

/-- R131, at the offsets that R92 gives from `P_PORT_BASE` (0xA0 by default): the low byte of a
frequency code is replaced, bits 11:8 are kept, and nothing else changes, the phase not either. -/
def Obligations.FrequencyLowWrite : Prop :=
  ∀ (v : Byte) (s : State), s.MayAccess →
    decodeRegWrite s.par (s.par.portBase + 0x00#8) v = .wrFrqLo0 v ∧
    decodeRegWrite s.par (s.par.portBase + 0x02#8) v = .wrFrqLo1 v ∧
    decodeRegWrite s.par (s.par.portBase + 0x04#8) v = .wrFrqLo2 v ∧
    exec (.wrFrqLo0 v) s = .next { s with
      chip := { s.chip with
        frq := { s.chip.frq with c0 := (s.chip.frq.c0 &&& 0xF00#12) ||| v.setWidth 12 } }
      result := .unit } ∧
    exec (.wrFrqLo1 v) s = .next { s with
      chip := { s.chip with
        frq := { s.chip.frq with c1 := (s.chip.frq.c1 &&& 0xF00#12) ||| v.setWidth 12 } }
      result := .unit } ∧
    exec (.wrFrqLo2 v) s = .next { s with
      chip := { s.chip with
        frq := { s.chip.frq with c2 := (s.chip.frq.c2 &&& 0xF00#12) ||| v.setWidth 12 } }
      result := .unit }

/-- R132: the four fields of a tone control byte, and nothing else. -/
def Obligations.ToneControlWrite : Prop :=
  ∀ (v : Byte) (s : State), s.MayAccess →
    decodeRegWrite s.par (s.par.portBase + 0x01#8) v = .wrToneCtl0 v ∧
    decodeRegWrite s.par (s.par.portBase + 0x03#8) v = .wrToneCtl1 v ∧
    decodeRegWrite s.par (s.par.portBase + 0x05#8) v = .wrToneCtl2 v ∧
    exec (.wrToneCtl0 v) s = .next { s with
      chip := { s.chip with
        frq := { s.chip.frq with c0 := (s.chip.frq.c0 &&& 0x0FF#12) ||| (v.setWidth 12 <<< 8) }
        dist := { s.chip.dist with c0 := (v >>> 4).setWidth 2 }
        hp := { s.chip.hp with c0 := v.getLsbD 6 }
        rm := { s.chip.rm with c0 := v.getLsbD 7 } }
      result := .unit } ∧
    exec (.wrToneCtl1 v) s = .next { s with
      chip := { s.chip with
        frq := { s.chip.frq with c1 := (s.chip.frq.c1 &&& 0x0FF#12) ||| (v.setWidth 12 <<< 8) }
        dist := { s.chip.dist with c1 := (v >>> 4).setWidth 2 }
        hp := { s.chip.hp with c1 := v.getLsbD 6 }
        rm := { s.chip.rm with c1 := v.getLsbD 7 } }
      result := .unit } ∧
    exec (.wrToneCtl2 v) s = .next { s with
      chip := { s.chip with
        frq := { s.chip.frq with c2 := (s.chip.frq.c2 &&& 0x0FF#12) ||| (v.setWidth 12 <<< 8) }
        dist := { s.chip.dist with c2 := (v >>> 4).setWidth 2 }
        hp := { s.chip.hp with c2 := v.getLsbD 6 }
        rm := { s.chip.rm with c2 := v.getLsbD 7 } }
      result := .unit }

/-- R133: the fields of the noise control byte; `pv` is reduced modulo the length the new width gives. -/
def Obligations.NoiseControlWrite : Prop :=
  ∀ (v : Byte) (s : State), s.MayAccess →
    decodeRegWrite s.par (s.par.portBase + 0x06#8) v = .wrNoiseCtl v ∧
    exec (.wrNoiseCtl v) s = .next { s with
      chip := { s.chip with
        nclk := v.setWidth 2
        vlsel := (v >>> 2).setWidth 2
        pv := s.chip.pv % (2 ^ [17, 15, 11, 9].getD (v.toNat / 4 % 4) 0 - 1)
        swap := v.getLsbD 4
        lp3 := v.getLsbD 5
        hp := { s.chip.hp with c3 := v.getLsbD 6 }
        rm := { s.chip.rm with c3 := v.getLsbD 7 } }
      result := .unit }

/-- R134 to R137 and R139: the plain register writes. -/
def Obligations.PlainRegisterWrites : Prop :=
  ∀ (v : Byte) (c : Fin 4) (s : State), s.MayAccess →
    decodeRegWrite s.par (s.par.portBase + 0x07#8) v = .wrSysCtl v ∧
    decodeRegWrite s.par (s.par.portBase + (0x08#8 + BitVec.ofNat 8 c.val)) v = .wrVolL c v ∧
    decodeRegWrite s.par (s.par.portBase + (0x0C#8 + BitVec.ofNat 8 c.val)) v = .wrVolR c v ∧
    decodeRegWrite s.par (s.par.portBase + (0x10#8 + BitVec.ofNat 8 c.val)) v = .wrPage c v ∧
    decodeRegWrite s.par (s.par.portBase + 0x15#8) v = .wrKbdRow v ∧
    exec (.wrSysCtl v) s = .next { s with
      chip := { s.chip with
        sndSel := (v >>> 1).setWidth 2
        dac := ⟨v.getLsbD 4, v.getLsbD 5, v.getLsbD 6, v.getLsbD 7⟩ }
      result := .unit } ∧
    exec (.wrVolL c v) s = .next { s with
      chip := { s.chip with volL := s.chip.volL.set c (v.setWidth 6) }, result := .unit } ∧
    exec (.wrVolR c v) s = .next { s with
      chip := { s.chip with volR := s.chip.volR.set c (v.setWidth 6) }, result := .unit } ∧
    exec (.wrPage c v) s = .next { s with
      chip := { s.chip with page := s.chip.page.set c v }, result := .unit } ∧
    exec (.wrKbdRow v) s = .next { s with
      chip := { s.chip with kbdRow := v.setWidth 4 }, result := .unit }

/-- R138: each source's enable is its even bit, its active bit is cleared by its odd bit and otherwise
kept, and nothing else changes. -/
def Obligations.InterruptControlWrite : Prop :=
  ∀ (v : Byte) (s : State), s.MayAccess → decodeRegWrite s.par (s.par.portBase + 0x14#8) v = .wrIntCtl v ∧
    ∃ t, exec (.wrIntCtl v) s = .next t ∧
    t = { s with
      chip := { s.chip with intEn := t.chip.intEn, intActive := t.chip.intActive }, result := .unit } ∧
    ∀ i : Fin 4, t.chip.intEn.get i = v.getLsbD (2 * i.val) ∧
      t.chip.intActive.get i = (s.chip.intActive.get i && !v.getLsbD (2 * i.val + 1))

/-- R140 to R142: these writes are ignored. -/
def Obligations.IgnoredWrites : Prop :=
  ∀ (off : BitVec 5) (addr v : Byte) (s : State), s.MayAccess →
    decodeRegWrite s.par (s.par.portBase + 0x16#8) v = .wrB6 v ∧
    (0x17 ≤ off.toNat → decodeRegWrite s.par (s.par.portBase + off.setWidth 8) v = .wrReserved off v) ∧
    (0x20 ≤ (addr - s.par.portBase).toNat → decodeRegWrite s.par addr v = .wrUnmapped addr v) ∧
    exec (.wrB6 v) s = .next { s with result := .unit } ∧
    exec (.wrReserved off v) s = .next { s with result := .unit } ∧
    exec (.wrUnmapped addr v) s = .next { s with result := .unit }

/-! ## Register reads -/

/-- R143, R148 and R149: the sentinel, and no change of state. -/
def Obligations.SentinelReads : Prop :=
  ∀ (off : BitVec 4) (off' : BitVec 5) (addr : Byte) (s : State), s.MayAccess →
    decodeRegRead s.par (s.par.portBase + off.setWidth 8) = .rdWo off ∧
    (0x17 ≤ off'.toNat → decodeRegRead s.par (s.par.portBase + off'.setWidth 8) = .rdReserved off') ∧
    (0x20 ≤ (addr - s.par.portBase).toNat → decodeRegRead s.par addr = .rdUnmapped addr) ∧
    exec (.rdWo off) s = .next { s with result := .byte s.par.sentinel } ∧
    exec (.rdReserved off') s = .next { s with result := .byte s.par.sentinel } ∧
    exec (.rdUnmapped addr) s = .next { s with result := .byte s.par.sentinel }

/-- R144 to R147: the bits each readable register is made of; no read changes any other field. -/
def Obligations.StatusReads : Prop :=
  ∀ (k : Fin 4) (s : State), s.MayAccess →
    decodeRegRead s.par (s.par.portBase + (0x10#8 + BitVec.ofNat 8 k.val)) = .rdPage k ∧
    decodeRegRead s.par (s.par.portBase + 0x14#8) = .rdIntStat ∧
    decodeRegRead s.par (s.par.portBase + 0x15#8) = .rdKbdCol ∧
    decodeRegRead s.par (s.par.portBase + 0x16#8) = .rdTape ∧
    exec (.rdPage k) s = .next { s with result := .byte (s.chip.page.get k) } ∧
    (∃ r, exec .rdIntStat s = .next { s with result := .byte r } ∧
      ∀ i : Fin 4, r.getLsbD (2 * i.val) = s.chip.intState.get i ∧
        r.getLsbD (2 * i.val + 1) = s.chip.intActive.get i) ∧
    (∃ r, exec .rdKbdCol s = .next { s with result := .byte r } ∧
      ∀ j, j < 8 → r.getLsbD j = !s.keys.getLsbD (s.chip.kbdRow.toNat * 8 + j)) ∧
    (∃ r, exec .rdTape s = .next { s with result := .byte r } ∧ r.getLsbD 7 = s.chip.tapeIn ∧
      r.getLsbD 6 = s.chip.tapeFb ∧ ∀ j, j < 6 → r.getLsbD j = true)

/-- R130, R150 and R151: `writeRegister` and `readRegister` complete at every address, with the effect and the
byte of the register operation that the address decodes to; a write changes no field outside the chip and a
read changes no state. -/
def Obligations.RegisterDispatch : Prop :=
  ∀ (addr v : Byte) (s : State), s.MayAccess →
    (∃ t, exec (.writeRegister addr v) s = .next t ∧ exec (decodeRegWrite s.par addr v) s = .next t ∧
      t = { s with chip := t.chip, result := .unit }) ∧
    ∃ r, exec (.readRegister addr) s = .next { s with result := .byte r } ∧
      exec (decodeRegRead s.par addr) s = .next { s with result := .byte r }

/-! ## Scanline tags -/

/-- R221 to R224 and R226 to R228: every tag's pixel formula. -/
def Obligations.TagsWriteSixteenPixels : Prop :=
  ∀ c0 c1 c2 c3 c4 c5 c6 c7 : Byte,
    decodeTag [0x00#8] = some (.blank, []) ∧ decodeTag [0x01#8, c0] = some (.fill1 c0, []) ∧
    decodeTag [0x02#8, c0, c1] = some (.fill2 c0 c1, []) ∧
    decodeTag [0x03#8, c0, c1, c2, c3] = some (.fill4 c0 c1 c2 c3, []) ∧
    decodeTag [0x04#8, c0, c1, c2, c3, c4, c5, c6, c7] = some (.fill8 c0 c1 c2 c3 c4 c5 c6 c7, []) ∧
    decodeTag [0x05#8, c0, c1, c2] = some (.bmp8 c0 c1 c2, []) ∧
    decodeTag [0x06#8, c0, c1, c2, c3, c4, c5] = some (.bmp16 c0 c1 c2 c3 c4 c5, []) ∧
    WritesPixels .blank (fun _ => 0#8) ∧
    WritesPixels (.fill1 c0) (fun _ => c0) ∧
    WritesPixels (.fill2 c0 c1) (fun j => if j < 8 then c0 else c1) ∧
    WritesPixels (.fill4 c0 c1 c2 c3)
      (fun j => if j < 4 then c0 else if j < 8 then c1 else if j < 12 then c2 else c3) ∧
    WritesPixels (.fill8 c0 c1 c2 c3 c4 c5 c6 c7)
      (fun j => if j < 2 then c0 else if j < 4 then c1 else if j < 6 then c2 else if j < 8 then c3
        else if j < 10 then c4 else if j < 12 then c5 else if j < 14 then c6 else c7) ∧
    WritesPixels (.bmp8 c0 c1 c2) (fun j => if c2.getLsbD (7 - j / 2) then c1 else c0) ∧
    WritesPixels (.bmp16 c0 c1 c2 c3 c4 c5)
      (fun j => if j < 8 then (if c2.getLsbD (7 - j) then c1 else c0)
        else (if c5.getLsbD (15 - j) then c4 else c3))

/-- R229, R230 and R234: an unknown tag ends the data, and a decoder that has met the end of the data, or
whose row is full, ignores every tag. -/
def Obligations.DecoderStopsAtTheEnd : Prop :=
  ∀ (s : State) (tag : Byte),
    (0x07 ≤ tag.toNat → ∀ rest, decodeTag (tag :: rest) = some (.unknownTag tag, rest)) ∧
    (s.Decoding →
      exec (.unknownTag tag) s = .next { s with dec := { s.dec with stopped := true }, result := .unit }) ∧
    ∀ i : Instr, i.format = .scanlineTag → (s.dec.stopped = true ∨ s.par.outW ≤ s.dec.x) →
      exec i s = .next { s with result := .unit }

/-- R220 and R225: decoding a payload made of tags, with a tail that is no whole tag, gives the row that the
tags leave one after another; the row always has the full width (R230). -/
def Obligations.LineDecoderRunsTags : Prop :=
  (∀ (p : Params) (tags : List Instr) (tail : Bytes),
    (∀ i ∈ tags, i.format = .scanlineTag ∧ WellFormed p i) → decodeTag tail = none →
    decodeLine p (tags.flatMap (encode p) ++ tail) =
      (tags.foldl (fun d i => tagStep p i d) (LineDec.start p)).row) ∧
  (∀ (i : Instr) (s : State), i.format = .scanlineTag →
    exec i s = .next { s with dec := tagStep s.par i s.dec, result := .unit }) ∧
  ∀ (p : Params) (payload : Bytes), (decodeLine p payload).length = p.outW

/-! ## Demo records -/

/-- R338 and R339: a well-formed key event sets or clears its key and nothing else. -/
def Obligations.DemoKeyEvents : Prop :=
  ∀ (delta : BitVec 63) (k : Byte) (s : State), s.MachineFree → k.toNat < 128 →
    (∃ t, exec (.demoKeyDown delta [k]) s = .next t ∧ t = { s with keys := t.keys, result := .unit } ∧
      ∀ j, j < 128 → t.keys.getLsbD j = (s.keys.getLsbD j || decide (j = k.toNat))) ∧
    (∃ t, exec (.demoKeyUp delta [k]) s = .next t ∧ t = { s with keys := t.keys, result := .unit } ∧
      ∀ j, j < 128 → t.keys.getLsbD j = (s.keys.getLsbD j && !decide (j = k.toNat)))

/-- R337 and R340: the end record, an unknown type and a malformed key event stop playback, clear every key
and record the reason; the chip is not reset. That a record's instruction is its dispatch, in Idle and Recording too (where
the mode becomes Idle with no commit), is the model's choice (log 15). -/
def Obligations.DemoStopEvents : Prop :=
  ∀ (delta : BitVec 63) (ty : Byte) (payload : Bytes) (s : State), s.MachineFree →
    exec (.demoEnd delta payload) s = .next { s with
      keys := 0, demo := { s.demo with mode := .idle, lastError := none }, result := .unit } ∧
    exec (.demoUnknown delta ty payload) s = .next { s with
      keys := 0, demo := { s.demo with mode := .idle, lastError := some .unknownType }, result := .unit } ∧
    ((∀ k, payload = [k] → 128 ≤ k.toNat) →
      exec (.demoKeyDown delta payload) s = .next { s with
        keys := 0, demo := { s.demo with mode := .idle, lastError := some .badKeyEvent }, result := .unit } ∧
      exec (.demoKeyUp delta payload) s = .next { s with
        keys := 0, demo := { s.demo with mode := .idle, lastError := some .badKeyEvent }, result := .unit })

/-- R332 and R333: a delta below 2^63 survives its encoding; nine bytes that all promise another are too
long, and fewer of them are cut short; leading 80 bytes are accepted up to the nine. -/
def Obligations.VarintCodec : Prop :=
  (∀ (d : Nat) (rest : Bytes), d < 2 ^ 63 → varintDecode (varintEncode d ++ rest) = .ok (d, rest)) ∧
  (∀ bs rest : Bytes, (∀ b ∈ bs, b.getLsbD 7 = true) → bs.length = 9 →
    varintDecode (bs ++ rest) = .error .varintTooLong) ∧
  (∀ bs : Bytes, (∀ b ∈ bs, b.getLsbD 7 = true) → bs.length < 9 →
    varintDecode bs = .error .demoTruncated) ∧
  ∀ (n d : Nat) (rest : Bytes), n + (varintEncode d).length ≤ 9 →
    varintDecode (List.replicate n 0x80#8 ++ varintEncode d ++ rest) = .ok (d, rest)

/-! ## Snapshot chunks -/

/-- R376: the chip chunk of a chip in its ranges is 111 bytes, and a loader that meets it stages that chip
again, bit for bit. R373 and R375: any 111-byte payload with a good checksum stages the chip of its bytes, each
field normalised, where the four selector bytes are the widths those fields select, and fails the selector check
where they are not. -/
def Obligations.ChipChunkRoundTrip : Prop :=
  (∀ (ch : Chip) (s : State), ch.Ranges → s.loader.status = .running → s.loader.staged = none →
    (encodeChip ch).length = 111 ∧
    exec (.chunkChip (encodeChip ch) (crc32 (encodeChip ch))) s =
      .next { s with loader := { s.loader with staged := some ch }, result := .unit }) ∧
  ∀ (b : Bytes) (s : State), b.length = 111 → s.loader.status = .running → s.loader.staged = none →
    let u8 (k : Nat) : Nat := (b.getD k 0).toNat
    let u16 (k : Nat) : Nat := u8 k * 256 + u8 (k + 1)
    let u32 (k : Nat) : Nat := u16 k * 65536 + u16 (k + 2)
    let flag (k : Nat) : Bool := decide (u8 k ≠ 0)
    let vl := [17, 15, 11, 9].getD (u8 27 % 4) 0
    let width (d : Nat) : Nat := [0, 4, 5, if flag 28 then vl else 7].getD (d % 4) 0
    let selected := u8 107 = width (u8 6) ∧ u8 108 = width (u8 7) ∧ u8 109 = width (u8 8) ∧
      u8 110 = if flag 28 then 7 else vl
    (¬selected → exec (.chunkChip b (crc32 b)) s = .next { s with
      loader := { s.loader with status := .failed .selectorMismatch }, result := .unit }) ∧
    (selected → ∃ ch : Chip,
      exec (.chunkChip b (crc32 b)) s = .next { s with
        loader := { s.loader with staged := some ch }, result := .unit } ∧
      (∀ c : Fin 3, (ch.frq.get c).toNat = u16 (2 * c.val) % 4096 ∧
        (ch.dist.get c).toNat = u8 (6 + c.val) % 4 ∧ (ch.phase.get c).toNat = u16 (17 + 2 * c.val) % 4096 ∧
        ch.osc.get c = flag (23 + c.val)) ∧
      (∀ c : Fin 4, ch.hp.get c = flag (9 + c.val) ∧ ch.rm.get c = flag (13 + c.val) ∧
        ch.raw.get c = flag (37 + c.val) ∧ ch.rawPrev.get c = flag (41 + c.val) ∧
        ch.mPrev.get c = flag (45 + c.val) ∧ ch.hpLatch.get c = flag (49 + c.val) ∧
        ch.out.get c = flag (53 + c.val) ∧ (ch.volL.get c).toNat = u8 (57 + c.val) % 64 ∧
        (ch.volR.get c).toNat = u8 (61 + c.val) % 64 ∧ ch.dac.get c = flag (65 + c.val) ∧
        ch.intEn.get c = flag (79 + c.val) ∧ ch.intState.get c = flag (83 + c.val) ∧
        ch.intActive.get c = flag (87 + c.val) ∧ (ch.page.get c).toNat = u8 (100 + c.val)) ∧
      ch.nclk.toNat = u8 26 % 4 ∧ ch.vlsel.toNat = u8 27 % 4 ∧ ch.swap = flag 28 ∧ ch.lp3 = flag 29 ∧
      ch.fixPhase.toNat = u32 30 ∧ ch.fixOsc = flag 34 ∧ ch.clkPrev = flag 35 ∧ ch.lpHold = flag 36 ∧
      ch.p4 = u16 69 % 15 ∧ ch.p5 = u16 71 % 31 ∧ ch.p7 = u16 73 % 127 ∧ ch.pv = u32 75 % (2 ^ vl - 1) ∧
      ch.sndSel.toNat = u8 91 % 4 ∧ ch.sndPhase.toNat = u32 92 ∧ ch.oneHzPhase.toNat = u32 96 ∧
      ch.kbdRow.toNat = u8 104 % 16 ∧ ch.tapeIn = flag 105 ∧ ch.tapeFb = flag 106)

/-- R364, R371, R374 and R375: the checksum, bit by bit, and what makes a chunk fail, with its reason, in the order
of R383. -/
def Obligations.ChunkFaults : Prop :=
  (∀ b : Bytes, crc32 b = (b.foldl (fun (r : Word) x => (List.range 8).foldl
      (fun (r : Word) _ => if r.getLsbD 0 = true then (r >>> 1) ^^^ 0xEDB88320#32 else r >>> 1) (r ^^^ x.setWidth 32))
    0xFFFFFFFF#32) ^^^ 0xFFFFFFFF#32) ∧
  crc32 [0x31#8, 0x32#8, 0x33#8, 0x34#8, 0x35#8, 0x36#8, 0x37#8, 0x38#8, 0x39#8] = 0xCBF43926#32 ∧
  crc32 [] = 0#32 ∧ crc32 [0#8] = 0xD202EF8D#32 ∧
  ∀ (payload : Bytes) (crc tag : Word) (s : State), s.loader.status = .running →
    (crc32 payload ≠ crc →
      ∀ i, (i = .chunkChip payload crc ∨ i = .chunkDemo payload crc ∨ i = .chunkMach payload crc ∨
          i = .chunkUnknown tag payload crc) →
        exec i s = .next { s with
          loader := { s.loader with status := .failed .badChecksum }, result := .unit }) ∧
    (crc32 payload = crc →
      (s.loader.staged.isSome = true →
        exec (.chunkChip payload crc) s = .next { s with
          loader := { s.loader with status := .failed .duplicateChunk }, result := .unit }) ∧
      (s.loader.staged = none → payload.length ≠ 111 →
        exec (.chunkChip payload crc) s = .next { s with
          loader := { s.loader with status := .failed .chunkLength }, result := .unit }) ∧
      (s.loader.staged = none → payload.length = 111 →
        selBytes (chipFields payload) ≠ payload.drop 107 →
        exec (.chunkChip payload crc) s = .next { s with
          loader := { s.loader with status := .failed .selectorMismatch }, result := .unit }) ∧
      (s.loader.log.isSome = true →
        exec (.chunkDemo payload crc) s = .next { s with
          loader := { s.loader with status := .failed .duplicateChunk }, result := .unit }))

/-- R377 to R380: a demo chunk with a good checksum becomes the log, a machine or unknown chunk is passed
over, and the end chunk is accepted only with length 0 and zeros behind it. -/
def Obligations.OtherChunks : Prop :=
  ∀ (payload : Bytes) (tag n : Word) (trailing : Bytes) (s : State), s.loader.status = .running →
    (s.loader.log = none →
      exec (.chunkDemo payload (crc32 payload)) s = .next { s with
        loader := { s.loader with log := some payload }, result := .unit }) ∧
    exec (.chunkMach payload (crc32 payload)) s = .next { s with result := .unit } ∧
    exec (.chunkUnknown tag payload (crc32 payload)) s = .next { s with result := .unit } ∧
    (n ≠ 0 → exec (.chunkEnd n trailing) s = .next { s with
      loader := { s.loader with status := .failed .badEnd }, result := .unit }) ∧
    ((∃ b ∈ trailing, b ≠ 0) → exec (.chunkEnd 0 trailing) s = .next { s with
      loader := { s.loader with status := .failed .trailingData }, result := .unit }) ∧
    ((∀ b ∈ trailing, b = 0) → exec (.chunkEnd 0 trailing) s = .next { s with
      loader := { s.loader with status := .done }, result := .unit })

/-! ## Commands -/

/-- R299 and R420: the demo is stopped, the chip takes the reset table, every key is released, and nothing
else changes. -/
def Obligations.ResetCommand : Prop :=
  ∀ s : State, s.MachineFree →
    exec .cmdReset s = .next { s with
      chip := Chip.reset, keys := 0, demo := s.demo.bothStopped, result := .unit }

/-- R300, R301 and R344: host keys are ignored during playback; otherwise the key changes, and a real
change is recorded while recording. -/
def Obligations.KeyCommands : Prop :=
  ∀ (k : BitVec 7) (s : State), s.MachineFree →
    (∃ t, exec (.cmdKeyDown k) s = .next t ∧
      t = { s with keys := t.keys, demo := t.demo, result := .unit } ∧
      (∀ j, j < 128 → t.keys.getLsbD j =
        (s.keys.getLsbD j || decide (j = k.toNat ∧ s.demo.mode ≠ .playing))) ∧
      t.demo = if s.demo.mode = .recording ∧ s.keys.getLsbD k.toNat = false then
          { s.demo with
            recBuf := s.demo.recBuf ++ varintEncode s.demo.recTicks ++ [0x01#8, 0x01#8, k.setWidth 8]
            recTicks := 0 }
        else s.demo) ∧
    (∃ t, exec (.cmdKeyUp k) s = .next t ∧
      t = { s with keys := t.keys, demo := t.demo, result := .unit } ∧
      (∀ j, j < 128 → t.keys.getLsbD j =
        (s.keys.getLsbD j && !decide (j = k.toNat ∧ s.demo.mode ≠ .playing))) ∧
      t.demo = if s.demo.mode = .recording ∧ s.keys.getLsbD k.toNat = true then
          { s.demo with
            recBuf := s.demo.recBuf ++ varintEncode s.demo.recTicks ++ [0x02#8, 0x01#8, k.setWidth 8]
            recTicks := 0 }
        else s.demo)

/-- R302, R303, R309 and R304: volume, tape and mouse are handed over unchanged and change nothing else
(that they are seen in `outbox` is the model's choice, log 8); a pause changes only the pause flag. -/
def Obligations.ForwardedAndPause : Prop :=
  ∀ (v dx dy : Half) (op : Byte) (b : Bool) (s : State), s.MachineFree →
    exec (.cmdSetVolume v) s = .next { s with outbox := .volume v :: s.outbox, result := .unit } ∧
    exec (.cmdTape op) s = .next { s with outbox := .tape op :: s.outbox, result := .unit } ∧
    exec (.cmdMouseDelta dx dy) s = .next { s with outbox := .mouse dx dy :: s.outbox, result := .unit } ∧
    exec (.cmdSetPaused b) s = .next { s with sync := { s.sync with paused := b }, result := .unit }

/-- R305 and R343: recording starts with a snapshot of the chip without a demo chunk, cleared keys and a
buffer that holds the version; a recording that ran is committed first. -/
def Obligations.RecordStart : Prop :=
  ∀ s : State, s.par.valid = true → s.MachineFree →
    exec .cmdDemoRecordStart s = .next { s with
      keys := 0
      demo := { s.demo.recordingStopped with
        mode := .recording
        startSnapshot := some (be32 s.par.snapshotVersion ++
          encodeChunk Config.tagChip (encodeChip s.chip) (crc32 (encodeChip s.chip)) ++
          List.replicate 8 0#8 ++ List.replicate (s.par.snapshotSize - 135) 0#8)
        recBuf := be32 s.par.demoVersion
        recTicks := 0
        lastError := none }
      result := .unit }

/-- R306, R346, R308 and R350: the two stop commands act only in their own mode. -/
def Obligations.DemoStopCommands : Prop :=
  ∀ s : State, s.MachineFree →
    exec .cmdDemoRecordStop s = .next { s with demo := s.demo.recordingStopped, result := .unit } ∧
    exec .cmdDemoPlayStop s = .next { s with
      keys := if s.demo.mode = .playing then 0 else s.keys
      demo := if s.demo.mode = .playing then { s.demo with mode := .idle, lastError := none } else s.demo
      result := .unit }

/-- R307, R341 and R347: a snapshot that holds a chip and a log starts playback from that chip with cleared keys:
the countdown is primed from the first delta, a first delta of 0 is dispatched before the first tick (as a tick of
the playing state with countdown 0 does); a log shorter than 4 bytes or of another version, or whose first delta does
not decode, stops it with the reason, and then neither position nor countdown has moved. -/
def Obligations.PlayStart : Prop :=
  ∀ (s : State) (blob log : Bytes) (ch : Chip), s.MachineFree →
    readSnapshot s.par blob = .ok (ch, some log) →
    let started : State := { s with
      chip := ch
      keys := 0
      demo := { s.demo.bothStopped with
        mode := .playing, playBuf := log, committed := some log, lastError := none } }
    (log.take 4 ≠ be32 s.par.demoVersion →
      exec (.cmdDemoPlayStart blob) s = .next { started with
        demo := { started.demo with mode := .idle, lastError := some .badVersion }, result := .unit }) ∧
    (∀ tail e, log = be32 s.par.demoVersion ++ tail → varintDecode tail = .error e →
      exec (.cmdDemoPlayStart blob) s = .next { started with
        demo := { started.demo with mode := .idle, lastError := some e }, result := .unit }) ∧
    ∀ (d : Nat) (delta rest : Bytes), log = be32 s.par.demoVersion ++ (delta ++ rest) →
      varintDecode (delta ++ rest) = .ok (d, rest) →
      let primed : State := { started with
        demo := { started.demo with playPos := 4 + delta.length, countdown := d } }
      exec (.cmdDemoPlayStart blob) s =
        .next { (if d = 0 then demoTick primed else primed) with result := .unit }

/-- R307, R347, R384 and R391: a snapshot that does not load, and one without a demo chunk, leave the reset state and
the reason in `last_error`; the one without a demo chunk leaves no committed log. -/
def Obligations.PlayStartFailure : Prop :=
  ∀ (s : State) (blob : Bytes), s.MachineFree →
    (∀ e, readSnapshot s.par blob = .error e →
      exec (.cmdDemoPlayStart blob) s = .next { s with
        chip := Chip.reset
        keys := 0
        demo := { s.demo.bothStopped with mode := .idle, lastError := some e }
        result := .unit }) ∧
    ∀ ch, readSnapshot s.par blob = .ok (ch, none) →
      exec (.cmdDemoPlayStart blob) s = .next { s with
        chip := Chip.reset
        keys := 0
        demo := { s.demo.bothStopped with mode := .idle, committed := none, lastError := some .noDemoChunk }
        result := .unit }

/-! ## The chip cycle -/

/-- R40, R176 and R177: a tone counter at 0 reloads, its flip-flop toggles and its raw output takes the source that
its distortion selects, the flip-flop or a polynomial counter as it stands after this cycle's step of it;
otherwise the counter goes down by one. -/
def Obligations.ToneCycle : Prop :=
  ∀ s : State, s.MachineFree → ∃ t, exec .advanceOneCycle s = .next t ∧
    ∀ c : Fin 3,
      (s.chip.phase.get c = 0 →
        t.chip.phase.get c = s.chip.frq.get c ∧ t.chip.osc.get c = (!s.chip.osc.get c) ∧
        t.chip.raw.get c.castSucc =
          if s.chip.dist.get c = 0 then !s.chip.osc.get c
          else polyBit s.par t.chip (if s.chip.dist.get c = 1 then .poly4
            else if s.chip.dist.get c = 2 then .poly5
            else if s.chip.swap then .polyVariable else .poly7)) ∧
      (s.chip.phase.get c ≠ 0 →
        t.chip.phase.get c = s.chip.phase.get c - 1 ∧ t.chip.osc.get c = s.chip.osc.get c ∧
        t.chip.raw.get c.castSucc = s.chip.raw.get c.castSucc)

/-- R170, R171, R173, R174, R180, R182 and R183: the polynomial tables (n ones first, and entry i + n is entry i
xor entry i + n - t for the tap t), the table and the phase each selector reads, the polynomial counters, the fixed
oscillator, the noise clock and the noise channel's raw output. -/
def Obligations.CounterAndNoiseCycle : Prop :=
  (∀ n t : Nat, 1 ≤ t → t ≤ n →
    (∀ i, i < n → polyTable n t i = true) ∧
    ∀ i, polyTable n t (i + n) = (polyTable n t i ^^ polyTable n t (i + n - t))) ∧
  (∀ (p : Params) (ch : Chip),
    polyBit p ch .poly4 = polyTable 4 p.taps.t4 ch.p4 ∧ polyBit p ch .poly5 = polyTable 5 p.taps.t5 ch.p5 ∧
    polyBit p ch .poly7 = polyTable 7 p.taps.t7 ch.p7 ∧
    polyBit p ch .polyVariable = polyTable ([17, 15, 11, 9].getD ch.vlsel.toNat 0)
      ([p.taps.t17, p.taps.t15, p.taps.t11, p.taps.t9].getD ch.vlsel.toNat 0) ch.pv) ∧
  ∀ s : State, s.MachineFree → ∃ t, exec .advanceOneCycle s = .next t ∧
    t.chip.p4 = (s.chip.p4 + 1) % 15 ∧ t.chip.p5 = (s.chip.p5 + 1) % 31 ∧
    t.chip.p7 = (s.chip.p7 + 1) % 127 ∧
    t.chip.pv = (s.chip.pv + 1) % (2 ^ [17, 15, 11, 9].getD s.chip.vlsel.toNat 0 - 1) ∧
    (s.chip.fixPhase = 0 → t.chip.fixPhase = s.par.fixOscReload ∧ t.chip.fixOsc = !s.chip.fixOsc) ∧
    (s.chip.fixPhase ≠ 0 → t.chip.fixPhase = s.chip.fixPhase - 1 ∧ t.chip.fixOsc = s.chip.fixOsc) ∧
    t.chip.clkPrev = [t.chip.fixOsc, t.chip.raw.c0, t.chip.raw.c1, t.chip.raw.c2].getD
      s.chip.nclk.toNat false ∧
    t.chip.raw.c3 =
      if s.chip.clkPrev = false ∧ t.chip.clkPrev = true then
        polyBit s.par t.chip (if s.chip.swap then .poly7 else .polyVariable)
      else s.chip.raw.c3

/-- R186 to R190 and R193: ring modulation with partner c + 2, highpass with partner c + 1, lowpass from
channel 2 on channel 3, the output bits and the edge history. -/
def Obligations.ModulationCycle : Prop :=
  ∀ s : State, s.MachineFree → ∃ t, exec .advanceOneCycle s = .next t ∧
    t.chip.rawPrev = t.chip.raw ∧
    (∀ c : Fin 4,
      t.chip.mPrev.get c =
        (if s.chip.rm.get c then t.chip.raw.get c ^^ t.chip.raw.get (c + 2) else t.chip.raw.get c) ∧
      t.chip.hpLatch.get c =
        (if s.chip.hp.get c = false then s.chip.hpLatch.get c
         else if s.chip.rawPrev.get (c + 1) = true ∧ t.chip.raw.get (c + 1) = false then false
         else if s.chip.mPrev.get c = false ∧ t.chip.mPrev.get c = true then true
         else s.chip.hpLatch.get c)) ∧
    (∀ c : Fin 4, c ≠ 3 → t.chip.out.get c =
      (t.chip.mPrev.get c && (!s.chip.hp.get c || t.chip.hpLatch.get c))) ∧
    t.chip.lpHold =
      (if s.chip.lp3 = true ∧ s.chip.rawPrev.c2 = true ∧ t.chip.raw.c2 = false then
        t.chip.mPrev.c3 && (!s.chip.hp.c3 || t.chip.hpLatch.c3)
       else s.chip.lpHold) ∧
    t.chip.out.c3 =
      if s.chip.lp3 then t.chip.lpHold else t.chip.mPrev.c3 && (!s.chip.hp.c3 || t.chip.hpLatch.c3)

/-- R191 and R205: the sample is the exact sum of the channels' levels, at most 1008 a side; a chip cycle
changes no register field and nothing outside the chip. -/
def Obligations.MixCycle : Prop :=
  ∀ s : State, s.MachineFree → ∃ t l r, exec .advanceOneCycle s = .next t ∧
    t = { s with chip := t.chip, outbox := .sample l r :: s.outbox, result := .sample l r } ∧
    l.toNat = ([0, 1, 2, 3].map fun c : Fin 4 =>
      if s.chip.dac.get c then 4 * (s.chip.volL.get c).toNat
      else if t.chip.out.get c then (s.chip.volL.get c).toNat else 0).sum ∧
    r.toNat = ([0, 1, 2, 3].map fun c : Fin 4 =>
      if s.chip.dac.get c then 4 * (s.chip.volR.get c).toNat
      else if t.chip.out.get c then (s.chip.volR.get c).toNat else 0).sum ∧
    l.toNat ≤ 1008 ∧ r.toNat ≤ 1008 ∧
    t.chip.frq = s.chip.frq ∧ t.chip.dist = s.chip.dist ∧ t.chip.hp = s.chip.hp ∧ t.chip.rm = s.chip.rm ∧
    t.chip.nclk = s.chip.nclk ∧ t.chip.vlsel = s.chip.vlsel ∧ t.chip.swap = s.chip.swap ∧
    t.chip.lp3 = s.chip.lp3 ∧ t.chip.volL = s.chip.volL ∧ t.chip.volR = s.chip.volR ∧
    t.chip.dac = s.chip.dac ∧ t.chip.intEn = s.chip.intEn ∧ t.chip.sndSel = s.chip.sndSel ∧
    t.chip.page = s.chip.page ∧ t.chip.kbdRow = s.chip.kbdRow ∧ t.chip.tapeIn = s.chip.tapeIn ∧
    t.chip.tapeFb = s.chip.tapeFb

/-- R196 to R198: the 1 Hz timer, the sound timer in its four modes, and the latches, which fire only on a
fall of an enabled source. -/
def Obligations.TimerCycle : Prop :=
  ∀ s : State, s.MachineFree → ∃ t, exec .advanceOneCycle s = .next t ∧
    (s.chip.oneHzPhase = 0 →
      t.chip.oneHzPhase = s.par.oneHzReload ∧ t.chip.intState.c1 = !s.chip.intState.c1) ∧
    (s.chip.oneHzPhase ≠ 0 →
      t.chip.oneHzPhase = s.chip.oneHzPhase - 1 ∧ t.chip.intState.c1 = s.chip.intState.c1) ∧
    (s.chip.sndSel = 0 ∨ s.chip.sndSel = 1 →
      (s.chip.sndPhase = 0 →
        t.chip.sndPhase = (if s.chip.sndSel = 0 then s.par.sndReload1k else s.par.sndReload50) ∧
        t.chip.intState.c0 = !s.chip.intState.c0) ∧
      (s.chip.sndPhase ≠ 0 →
        t.chip.sndPhase = s.chip.sndPhase - 1 ∧ t.chip.intState.c0 = s.chip.intState.c0)) ∧
    (s.chip.sndSel = 2 → t.chip.sndPhase = s.chip.sndPhase ∧ t.chip.intState.c0 = t.chip.osc.c0) ∧
    (s.chip.sndSel = 3 → t.chip.sndPhase = s.chip.sndPhase ∧ t.chip.intState.c0 = t.chip.osc.c1) ∧
    t.chip.intState.c2 = s.chip.intState.c2 ∧ t.chip.intState.c3 = s.chip.intState.c3 ∧
    ∀ i : Fin 4, t.chip.intActive.get i =
      (s.chip.intActive.get i || (s.chip.intEn.get i && s.chip.intState.get i && !t.chip.intState.get i))

/-! ## Setters and the interrupt line -/

/-- R211 to R214: a falling level of an enabled video source latches; the tape setters only move their bit. -/
def Obligations.ExternalSetters : Prop :=
  ∀ (b : Bool) (s : State), s.MachineFree →
    exec (.setInt1State b) s = .next { s with
      chip := { s.chip with
        intState := { s.chip.intState with c2 := b }
        intActive := { s.chip.intActive with
          c2 := s.chip.intActive.c2 || (s.chip.intEn.c2 && s.chip.intState.c2 && !b) } }
      result := .unit } ∧
    exec (.setInt2State b) s = .next { s with
      chip := { s.chip with
        intState := { s.chip.intState with c3 := b }
        intActive := { s.chip.intActive with
          c3 := s.chip.intActive.c3 || (s.chip.intEn.c3 && s.chip.intState.c3 && !b) } }
      result := .unit } ∧
    exec (.setTapeInput b) s = .next { s with chip := { s.chip with tapeIn := b }, result := .unit } ∧
    exec (.setTapeFeedback b) s = .next { s with chip := { s.chip with tapeFb := b }, result := .unit }

/-- R202 and R400: in any chip cycle, register access or setter call an active bit rises only where the
state bit falls in that same operation, the source is enabled, and the bit was 0. -/
def Obligations.EdgeTriggeredLatch : Prop :=
  ∀ (i : Instr) (s t : State) (k : Fin 4),
    (i.format = .regWrite ∨ i.format = .regRead ∨ i = .advanceOneCycle ∨
      (∃ a v, i = .writeRegister a v) ∨ (∃ a, i = .readRegister a) ∨ (∃ b, i = .setInt1State b) ∨
      (∃ b, i = .setInt2State b) ∨ (∃ b, i = .setTapeInput b) ∨ ∃ b, i = .setTapeFeedback b) →
    exec i s = .next t → s.chip.intActive.get k = false → t.chip.intActive.get k = true →
    s.chip.intState.get k = true ∧ t.chip.intState.get k = false ∧ s.chip.intEn.get k = true

/-- R199 and R426: the interrupt line falls only in a write of the interrupt register (0xB4 by default), a
reset, a load, or a `runFor` (whose commands and environment may do any of these). -/
def Obligations.InterruptLineFalls : Prop :=
  ∀ (i : Instr) (s t : State), exec i s = .next t → s.chip.irq = true → t.chip.irq = false →
    (∃ v, i = .wrIntCtl v) ∨ (∃ v, i = .writeRegister (s.par.portBase + 0x14#8) v) ∨ i = .cmdReset ∨
    (∃ b, i = .cmdDemoPlayStart b) ∨ (∃ b, i = .loadSnapshot b) ∨ ∃ us env, i = .runFor us env

/-! ## The frame pipeline -/

/-- R250 to R252, R260 and R263, with the model's choices of logs 11, 12 and 22: a line index in range replaces that line's event behind the last FrameDone, is
appended, counts towards the vsync pulse, and completes the field where R252 says; any other index is dropped. Each append
wakes a waiting `requestFrame` (`Woken`, a drawn outcome: the model's choice, log 11), and the call makes the machine
context see a shutdown (`shutSeen`, the model's choice, log 12). With no bound `P_EVQ_FIELDS` the queue keeps every event;
with a bound n the append of a FrameDone drops the oldest field groups beyond n (the moment, and that the rest of a
field drained in part is a group, are the model's choices, log 22). -/
def Obligations.SubmitScanline : Prop :=
  (∀ (p : Params) (q : List Event),
    (p.evqFields = none → boundEvq p q = q) ∧
    ∀ n, p.evqFields = some n → ∃ older, q = older ++ boundEvq p q ∧
      (older.filter Event.isDone).length = (q.filter Event.isDone).length - n ∧
      (older = [] ∨ ∃ o odd, older = o ++ [.frameDone odd])) ∧
  ∀ (i : Nat) (payload : Bytes) (s : State), s.MachineFree →
    (s.par.slots ≤ i → exec (.submitScanline i payload) s = .next { s with result := .unit }) ∧
    ∀ older current, i < s.par.slots → s.pipe.evq = older ++ current →
      current.any Event.isDone = false → (older = [] ∨ ∃ o b, older = o ++ [.frameDone b]) →
      let cnt := if s.pipe.vsyncCnt = 0 then 0 else s.pipe.vsyncCnt + 1
      let queue := older ++ current.filter (fun e => !e.isLine i) ++ [.line i payload]
      let sync := { s.sync with shutSeen := s.sync.shutSeen || s.sync.shutdown }
      let complete := 0 < cnt ∧ (s.par.vsyncMin ≤ cnt ∧ s.pipe.vsyncState = false ∨ s.par.vsyncMax ≤ cnt)
      (s.pipe.waitLeft = none →
        (complete → exec (.submitScanline i payload) s = .next { s with
          pipe := { s.pipe with
            evq := boundEvq s.par (queue ++ [.frameDone s.pipe.oddPending]), vsyncCnt := 0 }
          sync := sync, result := .unit }) ∧
        (¬complete → exec (.submitScanline i payload) s = .next { s with
          pipe := { s.pipe with evq := queue, vsyncCnt := cnt }, sync := sync, result := .unit })) ∧
      ∃ u, Woken { s with pipe := { s.pipe with evq := queue }, sync := sync } u ∧
        (complete → ∃ v, Woken { u with
            pipe := { u.pipe with
              evq := boundEvq s.par (u.pipe.evq ++ [.frameDone s.pipe.oddPending]), vsyncCnt := 0 } } v ∧
          exec (.submitScanline i payload) s = .next { v with result := .unit }) ∧
        (¬complete → exec (.submitScanline i payload) s =
          .next { u with pipe := { u.pipe with vsyncCnt := cnt }, result := .unit })

/-- R253: an edge moves the level; a rising edge with no pulse being counted starts one and samples the
field's parity from the slot. -/
def Obligations.FieldSync : Prop :=
  ∀ (lev : Bool) (slot : Nat) (s : State), s.MachineFree →
    exec (.notifyFieldSync lev slot) s = .next { s with
      pipe := { s.pipe with
        vsyncState := lev
        vsyncCnt :=
          if s.pipe.vsyncState = false ∧ lev = true ∧ s.pipe.vsyncCnt = 0 then 1 else s.pipe.vsyncCnt
        oddPending :=
          if s.pipe.vsyncState = false ∧ lev = true ∧ s.pipe.vsyncCnt = 0 then
            decide (s.par.oddLo ≤ slot ∧ slot ≤ s.par.oddHi)
          else s.pipe.oddPending }
      result := .unit }

/-- R233, R254, R261 and R270 to R272: a drain takes the queue's events in order, a line's payload replacing what its slot
held (the last one wins) and a FrameDone doing all that R255 to R260 say. After it a ready frame is returned as a copy
with the viewport and the count cleared; with none, a shutdown returns nothing; otherwise the call returns nothing or
goes on waiting with no more than the timeout left. A call made while another waits first ends that one with
nothing, and the outcome of the wait is a draw (the model's choices, log 11); how a waiting one is woken is said in
SubmitScanline and LockAndShutdown. A returned frame's host pixels are its raw bytes through `P_PALETTE` (as a table of
256 host pixels the model's form, log 41). -/
def Obligations.RequestFrame : Prop :=
  (∀ (par : Params) (f : Frame) (y x : Nat),
    (∀ table, par.palette = some table →
      f.hostPixelAt par y x = table.get (f.fb.read (y * par.outW + x)).toFin) ∧
    (par.palette = none → f.hostPixelAt par y x = Config.palette (f.fb.read (y * par.outW + x)))) ∧
  (∀ (par : Params) (pi : Pipe), pi.evq = [] → drain par pi = pi) ∧
  (∀ (par : Params) (pi : Pipe) (i : Nat) (payload : Bytes) (q : List Event), pi.evq = .line i payload :: q →
    ∃ slots, drain par pi = drain par { pi with evq := q, slots := slots } ∧
      LineMap.find slots i = some payload ∧ ∀ j, j ≠ i → LineMap.find slots j = LineMap.find pi.slots j) ∧
  (∀ (par : Params) (pi : Pipe) (odd : Bool) (q : List Event), pi.evq = .frameDone odd :: q →
    drain par pi = drain par (frameDone par odd { pi with evq := q })) ∧
  (∀ s : State, s.caller = .host → s.pipe.waitLeft ≠ none →
    exec .requestFrame s = exec .requestFrame { s with
      pipe := { s.pipe with waitLeft := none }, outbox := .frame none :: s.outbox }) ∧
  ∀ s : State, s.caller = .host → s.pipe.waitLeft = none →
    let p := drain s.par s.pipe
    (0 < p.frameReady →
      exec .requestFrame s = .next { s with
        pipe := { p with frameReady := 0 }
        outbox := .frame (some ⟨p.fb, p.viewport⟩) :: s.outbox
        result := .frame (some ⟨p.fb, p.viewport⟩) }) ∧
    (p.frameReady = 0 → s.sync.shutdown = true →
      exec .requestFrame s = .next { s with
        pipe := p, outbox := .frame none :: s.outbox, result := .frame none }) ∧
    (p.frameReady = 0 → s.sync.shutdown = false → ∃ t, exec .requestFrame s = .next t ∧
      t = { s with
        pipe := { p with waitLeft := t.pipe.waitLeft }
        outbox := t.outbox
        draws := s.draws + 1
        result := t.result } ∧
      ((t.result = .frame none ∧ t.pipe.waitLeft = none ∧ t.outbox = .frame none :: s.outbox) ∨
        (t.result = .waiting ∧ t.outbox = s.outbox ∧
          ∃ left, t.pipe.waitLeft = some left ∧ 0 < left ∧ left ≤ s.par.frameTimeoutMs)))

/-- R256, R257 and R259: at a FrameDone each received line below the field height gives its parity's row the
decoding of its payload, from the cache or not; a line not received keeps its row, and so does the other
parity. The decoder is called once for each received line whose payload is not the one last decoded for it, and
each received payload is then the last one of its line. -/
def Obligations.FieldRows : Prop :=
  ∀ (p : Params) (odd : Bool) (pi : Pipe), pi.MapsWf → pi.CacheOk p →
    (∀ i x, i < p.fieldLines → x < p.outW →
      pixelAt p ((frameDone p odd pi).rows odd) i x =
        match LineMap.find pi.slots i with
        | some payload => (decodeLine p payload).getD x Config.blankByte
        | none => pixelAt p (pi.rows odd) i x) ∧
    (frameDone p odd pi).rows (!odd) = pi.rows (!odd) ∧
    (frameDone p odd pi).decodeCount = pi.decodeCount +
      (pi.slots.filter fun e => decide (LineMap.find pi.lastPayload e.1 ≠ some e.2)).length ∧
    ∀ i, LineMap.find (frameDone p odd pi).lastPayload i =
      match LineMap.find pi.slots i with
      | some payload => some payload
      | none => LineMap.find pi.lastPayload i

/-- R255, R258, R260 and R265: the interlace counter, the three compositing modes, and the field's end, where an
autodetect request is used up and gives the border and the box of the composited picture; without one both stay. -/
def Obligations.FieldComposite : Prop :=
  ∀ (p : Params) (odd : Bool) (pi : Pipe),
    let q := frameDone p odd pi
    q.interlaceCnt = (if odd then p.interlaceHold else pi.interlaceCnt - 1) ∧
    q.slots = [] ∧ q.frameReady = pi.frameReady + 1 ∧ q.autodetectReq = false ∧ q.viewport = pi.viewport ∧
    (pi.autodetectReq = true →
      q.border = (autodetect p q).border ∧ q.bbox = (autodetect p q).bbox) ∧
    (pi.autodetectReq = false → q.border = pi.border ∧ q.bbox = pi.bbox) ∧
    ∀ i x, i < p.fieldLines → x < p.outW →
      (p.halfFrame = true → pixelAt p q.fb i x = pixelAt p (q.rows odd) i x) ∧
      (p.halfFrame = false → 0 < q.interlaceCnt →
        pixelAt p q.fb (2 * i) x = pixelAt p (q.rows false) i x ∧
        pixelAt p q.fb (2 * i + 1) x = pixelAt p (q.rows true) i x) ∧
      (p.halfFrame = false → q.interlaceCnt = 0 →
        pixelAt p q.fb (2 * i) x = pixelAt p (q.rows odd) i x ∧
        pixelAt p q.fb (2 * i + 1) x = pixelAt p (q.rows odd) i x)

/-- R266 and R267: the border is the colour of the first rows where they are uniform; the box is the least
one around the pixels that differ from it (from 0 without a border); the viewport and the picture are not
touched. -/
def Obligations.AutodetectBox : Prop :=
  ∀ (p : Params) (pi : Pipe),
    let q := autodetect p pi
    let bg := q.border.getD 0#8
    (∀ c, q.border = some c ↔ c = pixelAt p pi.fb 0 0 ∧
      ∀ y x, y < p.borderLines → y < p.fbH → x < p.outW → pixelAt p pi.fb y x = c) ∧
    (q.bbox = none ↔ ∀ y x, y < p.fbH → x < p.outW → pixelAt p pi.fb y x = bg) ∧
    (∀ b, q.bbox = some b →
      (∀ y x, y < p.fbH → x < p.outW → pixelAt p pi.fb y x ≠ bg →
        b.top ≤ y ∧ y ≤ b.bottom ∧ b.left ≤ x ∧ x ≤ b.right) ∧
      (∃ x, x < p.outW ∧ b.top < p.fbH ∧ pixelAt p pi.fb b.top x ≠ bg) ∧
      (∃ x, x < p.outW ∧ b.bottom < p.fbH ∧ pixelAt p pi.fb b.bottom x ≠ bg) ∧
      (∃ y, y < p.fbH ∧ b.left < p.outW ∧ pixelAt p pi.fb y b.left ≠ bg) ∧
      (∃ y, y < p.fbH ∧ b.right < p.outW ∧ pixelAt p pi.fb y b.right ≠ bg)) ∧
    q = { pi with border := q.border, bbox := q.bbox }

/-- R265 and R268: a request for autodetection only sets its flag; a viewport is clamped first and then
accepted only where it is not empty. -/
def Obligations.HostSettings : Prop :=
  ∀ (x1 y1 x2 y2 : Nat) (s : State), s.caller = .host →
    exec .requestAutodetect s = .next { s with
      pipe := { s.pipe with autodetectReq := true }, result := .unit } ∧
    (min x1 (s.par.outW - 1) < min x2 (s.par.outW - 1) ∧
        min y1 (s.par.fbH - 1) < min y2 (s.par.fbH - 1) →
      exec (.setViewport x1 y1 x2 y2) s = .next { s with
        pipe := { s.pipe with
          viewport := ⟨min x1 (s.par.outW - 1), min y1 (s.par.fbH - 1), min x2 (s.par.outW - 1),
            min y2 (s.par.fbH - 1)⟩ }
        result := .bool true }) ∧
    (¬(min x1 (s.par.outW - 1) < min x2 (s.par.outW - 1) ∧
        min y1 (s.par.fbH - 1) < min y2 (s.par.fbH - 1)) →
      exec (.setViewport x1 y1 x2 y2) s = .next { s with result := .bool false })

/-! ## The synchronizer -/

/-- R290 to R292: a full queue drops and counts, a shutdown drops silently, otherwise the command is
appended. -/
def Obligations.EnqueueCommand : Prop :=
  ∀ (c : Command) (s : State), s.caller = .host →
    (s.sync.shutdown = true → exec (.enqueue c) s = .next { s with result := .bool false }) ∧
    (s.sync.shutdown = false → s.par.cmdqCap ≤ s.sync.cmdq.length →
      exec (.enqueue c) s = .next { s with
        sync := { s.sync with dropped := s.sync.dropped + 1 }, result := .bool false }) ∧
    (s.sync.shutdown = false → s.sync.cmdq.length < s.par.cmdqCap →
      exec (.enqueue c) s = .next { s with
        sync := { s.sync with cmdq := s.sync.cmdq ++ [c] }, result := .bool true })

/-- R74, R314, R318 and R323: a run under the lock does nothing; a paused run with nothing queued does nothing; a run
that sees the shutdown stops the demo and discards the queue. That a run under the lock does nothing after a shutdown
either is the model's choice against the order of R314's pseudocode (log 38). -/
def Obligations.RunForWithoutCycles : Prop :=
  ∀ (us : Nat) (env : List (List EnvCall)) (s : State), s.caller = .machine →
    (s.sync.lockHeld = true → exec (.runFor us env) s = .next { s with result := .unit }) ∧
    (s.sync.shutdown = false → s.sync.lockHeld = false → s.sync.paused = true → s.sync.cmdq = [] →
      exec (.runFor us env) s = .next { s with result := .unit }) ∧
    (s.sync.lockHeld = false → s.sync.shutdown = true → s.sync.shutSeen = true →
      exec (.runFor us env) s = .next { s with
        keys := if s.demo.mode = .playing then 0 else s.keys
        demo := s.demo.bothStopped
        sync := { s.sync with cmdq := [] }
        result := .unit })

/-- R293 and R314: a run takes the whole queue, applies it in order, each command as the instruction that
carries it out, and then runs the budget's cycles unless paused, keeping the remainder. After a shutdown that the machine
context need not see yet (R76) a run either sees it and stops, or runs so, and has seen it then. The model's choices:
that a command is an instruction of its own (log 14), that `P_MACHINE_HZ` may be given as an argument of its own, in
place of twice the chip rate (log 35), and that a draw says whether the unseen shutdown is seen (log 12). -/
def Obligations.RunForAppliesCommands : Prop :=
  (∀ (c : Command) (s : State), s.MachineFree →
    exec c.toInstr s = .next { applyCommand s c with result := .unit }) ∧
  ∀ (us : Nat) (env : List (List EnvCall)) (s : State), s.MachineFree →
    let ran (u : State) : State :=
      let total := us * s.par.machineHzArg.getD (2 * s.par.chipHz) + u.sync.cycleRem
      if u.sync.paused = true then u
      else machineCycles (total / 1000000) env { u with sync := { u.sync with cycleRem := total % 1000000 } }
    (s.sync.shutdown = false → exec (.runFor us env) s = .next {
      ran (s.sync.cmdq.foldl applyCommand { s with sync := { s.sync with cmdq := [] } }) with
      result := .unit }) ∧
    (s.sync.shutdown = true → s.sync.shutSeen = false →
      let seen : State := { s with sync := { s.sync with cmdq := [], shutSeen := true }, draws := s.draws + 1 }
      exec (.runFor us env) s = .next { seen with
        keys := if s.demo.mode = .playing then 0 else s.keys
        demo := s.demo.bothStopped
        result := .unit } ∨
      exec (.runFor us env) s = .next { ran (s.sync.cmdq.foldl applyCommand seen) with result := .unit })

/-- R316, R317, R331, R340, R348 and R349: a call of the environment has the effect of the interface operation of its
name; n machine cycles are n turns, each with the next list of calls; every second one runs one chip cycle and
one demo tick after its environment's calls. That the calls are a list for each machine cycle given from outside, a
missing list being no call, is the model's reading (log 21), and that a byte read goes to the CPU is its form (log 8). A tick
counts while recording and counts down while playing. A due key event changes its key and primes the next delta,
and where that is 0 the next event is due in the same tick; a due END, a malformed record, one that is cut
short and a next delta that does not decode stop playback with their reasons. -/
def Obligations.MachineCycleAndTick : Prop :=
  (∀ (a v : Byte) (b : Bool) (i : Nat) (payload : Bytes) (s : State), s.MachineFree →
    exec (.writeRegister a v) s = .next { callEnv s (.writeRegister a v) with result := .unit } ∧
    exec (.setInt1State b) s = .next { callEnv s (.setInt1State b) with result := .unit } ∧
    exec (.setInt2State b) s = .next { callEnv s (.setInt2State b) with result := .unit } ∧
    exec (.setTapeInput b) s = .next { callEnv s (.setTapeInput b) with result := .unit } ∧
    exec (.setTapeFeedback b) s = .next { callEnv s (.setTapeFeedback b) with result := .unit } ∧
    exec (.submitScanline i payload) s =
      .next { callEnv s (.submitScanline i payload) with result := .unit } ∧
    exec (.notifyFieldSync b i) s = .next { callEnv s (.notifyFieldSync b i) with result := .unit } ∧
    ∃ r, exec (.readRegister a) s = .next { s with result := .byte r } ∧
      callEnv s (.readRegister a) = { s with outbox := .cpuRead a r :: s.outbox }) ∧
  (∀ (n : Nat) (env : List (List EnvCall)) (s : State),
    machineCycles 0 env s = s ∧
    machineCycles (n + 1) env s = machineCycles n env.tail (machineCycle (env.head?.getD []) s)) ∧
  (∀ (calls : List EnvCall) (s : State),
    let u := calls.foldl callEnv s
    (s.sync.mcPhase = 0 → machineCycle calls s = { u with sync := { u.sync with mcPhase := 1 } }) ∧
    (s.sync.mcPhase = 1 →
      machineCycle calls s = demoTick (advance { u with sync := { u.sync with mcPhase := 0 } }).1)) ∧
  ∀ s : State,
    (s.demo.mode = .idle → demoTick s = s) ∧
    (s.demo.mode = .recording →
      demoTick s = { s with demo := { s.demo with recTicks := min (s.demo.recTicks + 1) (2 ^ 63 - 1) } }) ∧
    (s.demo.mode = .playing → 1 < s.demo.countdown →
      demoTick s = { s with demo := { s.demo with countdown := s.demo.countdown - 1 } }) ∧
    (s.demo.mode = .playing → s.demo.countdown ≤ 1 →
      let bytes := s.demo.playBuf.drop s.demo.playPos
      let stopped (read : Nat) (reason : Option FaultCode) : State := { s with
        keys := 0
        demo := { s.demo with
          mode := .idle, countdown := 0, playPos := s.demo.playPos + read, lastError := reason } }
      (∀ (down : Bool) (k : Byte) (tail : Bytes), k.toNat < 128 →
        bytes = [if down then 0x01#8 else 0x02#8, 0x01#8, k] ++ tail →
        (∀ e, varintDecode tail = .error e → demoTick s = stopped 3 (some e)) ∧
        ∀ (d : Nat) (delta rest : Bytes), tail = delta ++ rest → varintDecode tail = .ok (d, rest) → ∃ keys : Keys,
          (∀ j, j < 128 → keys.getLsbD j = if j = k.toNat then down else s.keys.getLsbD j) ∧
          let u : State := { s with
            keys := keys
            demo := { s.demo with
              countdown := d, playPos := s.demo.playPos + 3 + delta.length } }
          demoTick s = if d = 0 then demoTick u else u) ∧
      (∀ (ty : Byte) (payload rest : Bytes), payload.length < 256 →
        bytes = ty :: BitVec.ofNat 8 payload.length :: payload ++ rest →
        (ty = 0x00#8 → demoTick s = stopped (2 + payload.length) none) ∧
        (ty = 0x01#8 ∨ ty = 0x02#8 → (∀ k, payload = [k] → 128 ≤ k.toNat) →
          demoTick s = stopped (2 + payload.length) (some .badKeyEvent)) ∧
        (0x03 ≤ ty.toNat → demoTick s = stopped (2 + payload.length) (some .unknownType))) ∧
      (bytes.length < 2 ∨ (∃ ty len rest, bytes = ty :: len :: rest ∧ rest.length < len.toNat) →
        demoTick s = stopped 0 (some .demoTruncated)))

/-- R315: while not paused and with nothing queued, splitting a budget changes nothing: two runs leave the
state that one run of the summed budget leaves, the environment's calls being shared out between them. -/
def Obligations.BudgetSplit : Prop :=
  ∀ (us us' : Nat) (env : List (List EnvCall)) (s : State), s.sync.shutdown = false →
    s.MachineFree → s.sync.paused = false → s.sync.cmdq = [] →
    let n := (us * s.par.machineHz + s.sync.cycleRem) / 1000000
    ∃ u, exec (.runFor us (env.take n)) s = .next u ∧
      exec (.runFor us' (env.drop n)) u = exec (.runFor (us + us') env) s

/-- R74 and R320 to R322: a held lock cannot be taken again; a free one is taken or times out; unlock frees a held
lock and without the lock does nothing; a shutdown request sets the flag and wakes a waiting `requestFrame`. The model's
choices: the time-out is a draw (log 10), an unlock makes the machine context see a shutdown requested before
(log 12), and what the woken call does is a draw (`Woken`, log 11). -/
def Obligations.LockAndShutdown : Prop :=
  ∀ (ms : Nat) (s : State), s.caller = .host →
    (s.sync.lockHeld = true → exec (.lock ms) s = .next { s with result := .bool false }) ∧
    (s.sync.lockHeld = false → ∃ b, exec (.lock ms) s = .next { s with
      sync := { s.sync with lockHeld := b }, draws := s.draws + 1, result := .bool b }) ∧
    (s.sync.lockHeld = true → exec .unlock s = .next { s with
      sync := { s.sync with lockHeld := false, shutSeen := s.sync.shutSeen || s.sync.shutdown }
      result := .unit }) ∧
    (s.sync.lockHeld = false → exec .unlock s = .next { s with result := .unit }) ∧
    (s.pipe.waitLeft = none → exec .requestShutdown s = .next { s with
      sync := { s.sync with shutdown := true }, result := .unit }) ∧
    ∃ t, Woken { s with sync := { s.sync with shutdown := true } } t ∧
      exec .requestShutdown s = .next { t with result := .unit }

/-! ## Snapshots -/

/-- R382 and R354: under the lock a save returns the version, the chip chunk, the committed log's chunk, the
end chunk and zero padding, or nothing where that does not fit; the demo blob is the start snapshot with
the committed log's chunk in it, and there is none without both. Neither changes any state. -/
def Obligations.SnapshotHostCalls : Prop :=
  ∀ s : State, s.HostHolding →
    (∀ content : Bytes, content = be32 s.par.snapshotVersion ++
        encodeChunk Config.tagChip (encodeChip s.chip) (crc32 (encodeChip s.chip)) ++
        (match s.demo.committed with
          | none => []
          | some log => encodeChunk Config.tagDemo log (crc32 log)) ++ List.replicate 8 0#8 →
      exec .saveSnapshot s = .next { s with
        result := .blob (if content.length ≤ s.par.snapshotSize then
          some (content ++ List.replicate (s.par.snapshotSize - content.length) 0#8) else none) }) ∧
    (s.demo.startSnapshot = none ∨ s.demo.committed = none →
      exec .demoBlob s = .next { s with result := .blob none }) ∧
    ∀ ch b log, saveBlob s.par ch none = some b → s.demo.startSnapshot = some b →
      s.demo.committed = some log →
      exec .demoBlob s = .next { s with result := .blob (saveBlob s.par ch (some log)) }

/-- R371 and R383 to R385: which bytes a load fails on, and with which reason: another size, another version, a chunk
that its loader refuses, the end of the blob inside a chunk, a bad end chunk, bytes behind it, no chip chunk. A
load that fails returns the reason and leaves the chip reset, the keys clear, the demo idle with its committed log as
the stop left it, and everything else as it was; one of a good blob leaves its chip, clear keys, the demo stopped and
the blob's log committed (none where it has no demo chunk, R377). -/
def Obligations.LoadFailure : Prop :=
  (∀ (p : Params) (blob : Bytes),
    (blob.length ≠ p.snapshotSize → readSnapshot p blob = .error .badSize) ∧
    ∀ (v : Word) (chunks : List Instr) (tail : Bytes),
      blob = be32 v ++ (chunks.flatMap (encode p) ++ tail) → blob.length = p.snapshotSize →
      (∀ i ∈ chunks, i.format = .snapshotChunk ∧ WellFormed p i ∧ ∀ n trailing, i ≠ .chunkEnd n trailing) →
      let l := chunks.foldl (fun l i => chunkStep i l) Loader.start
      (v ≠ p.snapshotVersion → readSnapshot p blob = .error .versionMismatch) ∧
      (v = p.snapshotVersion → ∀ e, l.status = .failed e → readSnapshot p blob = .error e) ∧
      (v = p.snapshotVersion → l.status = .running →
        (tail.length < 8 → readSnapshot p blob = .error .truncated) ∧
        (∀ (tag n : Word) (body : Bytes), tail = be32 tag ++ be32 n ++ body →
          (tag ≠ 0 → body.length < n.toNat + 4 → readSnapshot p blob = .error .truncated) ∧
          (tag = 0 → n ≠ 0 → readSnapshot p blob = .error .badEnd) ∧
          (tag = 0 → n = 0 → (∃ b ∈ body, b ≠ 0) → readSnapshot p blob = .error .trailingData) ∧
          (tag = 0 → n = 0 → (∀ b ∈ body, b = 0) →
            (l.staged = none → readSnapshot p blob = .error .missingChip) ∧
            ∀ ch, l.staged = some ch → readSnapshot p blob = .ok (ch, l.log))))) ∧
  ∀ (blob : Bytes) (s : State), s.HostHolding →
    (∀ e, readSnapshot s.par blob = .error e → exec (.loadSnapshot blob) s = .next { s with
      chip := Chip.reset
      keys := 0
      demo := { s.demo.bothStopped with mode := .idle }
      result := .load (.error e) }) ∧
    ∀ ch log, readSnapshot s.par blob = .ok (ch, log) → exec (.loadSnapshot blob) s = .next { s with
      chip := ch
      keys := 0
      demo := { s.demo.bothStopped with committed := log }
      result := .load (.ok ()) }

/-- R386: what a save wrote loads again into any state with the same parameters: the chip bit for bit, the
committed log, and cleared keys. -/
def Obligations.SnapshotRoundTrip : Prop :=
  ∀ (s u : State) (b : Bytes), s.chip.Ranges → (∀ log, s.demo.committed = some log → log.length < 2 ^ 32) →
    s.HostHolding → saveSnapshot s = some b → u.par = s.par → u.HostHolding →
    exec .saveSnapshot s = .next { s with result := .blob (some b) } ∧
    exec (.loadSnapshot b) u = .next { u with
      chip := s.chip
      keys := 0
      demo := { u.demo.bothStopped with committed := s.demo.committed }
      result := .load (.ok ()) }

/-! ## Contexts, the step and the codec -/

/-- R74, R75 and R402: each context makes only its own calls: while the host holds the lock the machine context makes
none but `runFor`, and without the lock the host makes none that needs it; a call of the other context's is refused. -/
def Obligations.ContextChecks : Prop :=
  ∀ (i : Instr) (s : State),
    (RegisterAccess i →
      (s.caller = .machine → s.sync.lockHeld = true → exec i s = .refused .machineWhileLocked) ∧
      (s.caller = .host → s.sync.lockHeld = false → exec i s = .refused .hostWithoutLock)) ∧
    (MachineCall i →
      (s.caller = .machine → s.sync.lockHeld = true → exec i s = .refused .machineWhileLocked) ∧
      (s.caller = .host → exec i s = .refused .wrongContext)) ∧
    (∀ us env, i = .runFor us env → s.caller = .host → exec i s = .refused .wrongContext) ∧
    (HostCall i → s.caller = .machine → exec i s = .refused .wrongContext) ∧
    (LockedCall i →
      (s.caller = .machine → exec i s = .refused .wrongContext) ∧
      (s.caller = .host → s.sync.lockHeld = false → exec i s = .refused .hostWithoutLock))

/-- The model's choice (logs 1, 4, 5 and 13): a step runs the instruction that the first bytes on the input port decode
to, in its item's context, with what is still read of the item back on the port: of a payload nothing behind a full
row or the end of its data, of a log nothing behind a record that ends it, of a snapshot nothing once its loader has
stopped. A new payload starts a blank row and a new snapshot a fresh loader. An item that ends inside an instruction
ends the row's data (R225), is a decode error (R340) or is `Truncated` (R370); in the other formats it is refused. With
nothing on the port a step changes nothing. -/
def Obligations.StepRunsDecoded : Prop :=
  ∀ s : State, s.par.valid = true →
    (s.input = [] → step s = .next s) ∧
    ∀ (it : Item) (later : List Item), s.input = it :: later →
      let opened : State := { s with
        caller := it.caller
        input := later
        dec := if it.first = true ∧ it.fmt = .scanlineTag then
            ⟨List.replicate s.par.outW 0#8, 0, false⟩ else s.dec
        loader := if it.first = true ∧ it.fmt = .snapshotChunk then ⟨none, none, .running⟩ else s.loader }
      (∀ (i : Instr) (rest : Bytes), decode s.par it.fmt it.bytes = some (i, rest) →
        let left := leftover i rest opened
        step s = exec i { opened with
          input := if left = [] then later else ⟨it.caller, it.fmt, false, left⟩ :: later } ∧
        (it.fmt = .scanlineTag → left =
          if (tagStep s.par i opened.dec).stopped = true ∨ s.par.outW ≤ (tagStep s.par i opened.dec).x then []
          else rest) ∧
        (it.fmt = .snapshotChunk → left =
          if (chunkStep i opened.loader).status = .running then rest else []) ∧
        (∀ (d : BitVec 63) (ty : Byte) (payload : Bytes),
          (i = .demoEnd d payload ∨ i = .demoUnknown d ty payload → left = []) ∧
          (i = .demoKeyDown d payload ∨ i = .demoKeyUp d payload →
            ((∀ k, payload = [k] → 128 ≤ k.toNat) → left = []) ∧
            ∀ k, payload = [k] → k.toNat < 128 → left = rest)) ∧
        (it.fmt = .regWrite ∨ it.fmt = .regRead ∨ it.fmt = .command ∨ it.fmt = .interface → left = rest)) ∧
      (decode s.par it.fmt it.bytes = none →
        (it.fmt = .scanlineTag → step s = .next { opened with
          dec := if opened.dec.stopped = true ∨ s.par.outW ≤ opened.dec.x then opened.dec
            else { opened.dec with stopped := true }
          result := .unit }) ∧
        (it.fmt = .demoRecord → opened.MachineFree →
          ∀ e, e = (match varintDecode it.bytes with | .error e => e | .ok _ => .demoTruncated) →
          step s = .next { opened with
            keys := 0, demo := { s.demo with mode := .idle, lastError := some e }, result := .unit }) ∧
        (it.fmt = .snapshotChunk → step s = .next { opened with
          loader := if opened.loader.status = .running then
            { opened.loader with status := .failed .truncated } else opened.loader
          result := .unit }) ∧
        (it.fmt = .regWrite ∨ it.fmt = .regRead ∨ it.fmt = .command ∨ it.fmt = .interface →
          step s = .refused .undecodable))

/-- One word of each family with the default parameters, written out from its encoding (R92, R93, R104, R107, R110). The
spec gives commands (R112) and interface calls (R113) no bytes: the last two words are the model's transport (DESIGN
CHOICE, log 2). -/
def Obligations.DecodeWords : Prop :=
  decode {} .regWrite [0b10100001#8, 0b10010101#8] = some (.wrToneCtl0 0x95#8, []) ∧
  decode {} .regWrite [0b10101010#8, 0b00111111#8] = some (.wrVolL 2 0x3F#8, []) ∧
  decode {} .regRead [0b10110100#8] = some (.rdIntStat, []) ∧
  decode {} .regRead [0b10110011#8] = some (.rdPage 3, []) ∧
  decode {} .scanlineTag [0x05#8, 0x10#8, 0x20#8, 0x81#8] = some (.bmp8 0x10#8 0x20#8 0x81#8, []) ∧
  decode {} .demoRecord [0x82#8, 0x2C#8, 0x01#8, 0x01#8, 0x13#8] = some (.demoKeyDown 300#63 [0x13#8], []) ∧
  decode {} .snapshotChunk [0#8, 0#8, 0#8, 0#8, 0#8, 0#8, 0#8, 0#8] = some (.chunkEnd 0#32 [], []) ∧
  decode {} .command [0x02#8, 0x13#8] = some (.cmdKeyDown 19#7, []) ∧
  decode {} .interface [0x07#8, 0x03#8, 0x01#8, 0x00#8] = some (.submitScanline 3 [0x00#8], [])

/-- Decoding the encoding of a well-formed instruction gives it back, every operand with it, and leaves
what stands behind it (the end chunk alone takes everything behind it, R379). The encodings of the spec are those of
register accesses at the base 0xA0, scanline tags, demo records and snapshot chunks. The bytes of a command and of an
interface call are the model's transport (DESIGN CHOICE, log 2: R112 and R113 give none), and so is the register
window at another base (log 33). -/
def Obligations.DecodeEncode : Prop :=
  ∀ (p : Params) (i : Instr), WellFormed p i →
    decode p i.format (encode p i) = some (i, []) ∧
    ∀ rest : Bytes, (∀ n trailing, i ≠ .chunkEnd n trailing) →
      decode p i.format (encode p i ++ rest) = some (i, rest)

/-! ## Invariants of every step -/

/-- Every step keeps the canonical form of the four pixel planes. -/
def Obligations.StepKeepsMemory : Prop :=
  ∀ s t : State, s.pipe.PlanesWf → step s = .next t → t.pipe.PlanesWf

/-- R200: every step keeps the polynomial counters inside their tables. -/
def Obligations.StepKeepsChipRanges : Prop :=
  ∀ s t : State, s.chip.Ranges → step s = .next t → t.chip.Ranges

/-- R291, R315, R316, R230, R268 and R272: every step keeps the bounds of the small fields. -/
def Obligations.StepKeepsBounds : Prop :=
  ∀ s t : State, s.Bounds → step s = .next t → t.Bounds

/-- R44 and R251: every step keeps at most one event per line behind the last FrameDone, and every queued
line index below `P_SLOTS`. -/
def Obligations.StepKeepsQueue : Prop :=
  ∀ s t : State, QueueOk s.par s.pipe.evq → step s = .next t → QueueOk t.par t.pipe.evq

/-- R259: every step keeps the unchanged-line cache transparent. -/
def Obligations.StepKeepsCache : Prop :=
  ∀ s t : State, s.pipe.CacheOk s.par → step s = .next t → t.pipe.CacheOk t.par

/-- R43 to R48 and R421 to R424: a construction gives every chip field 0, no key pressed and the construction values of
the pipeline, the synchronizer and the demo; the state after reset is that of the default parameters (log 20), meets
every invariant, its registers read as R422 says, and its first chip cycle gives what R423 says. (The fields `waitLeft` and
`shutSeen`, the last of the pipeline and the synchronizer, are the model's own, logs 11 and 12.) -/
def Obligations.ResetState : Prop :=
  (∀ p : Params,
    let s := State.construct p
    s.par = p ∧ s.chip = Chip.reset ∧ s.keys = 0 ∧
    s.pipe = ⟨false, 0, false, [], [], [], [], [], [], [], 0, 0, ⟨0, 0, p.outW - 1, p.fbH - 1⟩, none, none, false, 0,
      none⟩ ∧
    s.sync = ⟨[], false, false, false, 0, 0, 0, false⟩ ∧
    s.demo = ⟨.idle, [], 0, [], 0, 0, none, none, none⟩) ∧
  State.reset = State.construct {} ∧
  (State.reset.pipe.PlanesWf ∧ State.reset.chip.Ranges ∧ State.reset.Bounds ∧
    QueueOk State.reset.par State.reset.pipe.evq ∧ State.reset.pipe.CacheOk State.reset.par) ∧
  State.reset.chip = ⟨Tri.all 0, Tri.all 0, Quad.all false, Quad.all false, Tri.all 0, Tri.all false, 0, 0,
    false, false, 0, false, false, false, Quad.all false, Quad.all false, Quad.all false, Quad.all false,
    Quad.all false, Quad.all 0, Quad.all 0, Quad.all false, 0, 0, 0, 0, Quad.all false, Quad.all false,
    Quad.all false, 0, 0, 0, Quad.all 0, 0, false, false⟩ ∧
  State.reset.keys = 0 ∧ State.reset.chip.irq = false ∧
  exec .rdIntStat State.reset = .next { State.reset with result := .byte 0x00#8 } ∧
  exec .rdKbdCol State.reset = .next { State.reset with result := .byte 0xFF#8 } ∧
  exec .rdTape State.reset = .next { State.reset with result := .byte 0x3F#8 } ∧
  ∃ t, exec .advanceOneCycle State.reset = .next t ∧ t.result = .sample 0 0 ∧ t.chip.phase = Tri.all 0 ∧
    t.chip.osc = Tri.all true ∧ t.chip.raw = Quad.all true ∧ t.chip.fixOsc = true ∧
    t.chip.intState = ⟨true, true, false, false⟩ ∧ t.chip.intActive = Quad.all false ∧
    t.chip.out = Quad.all true

/-- R10, R392, R394, R424 and R425: the constraints on the parameters; a step with others is refused; a construction
fails where the allocation fails (answered before bad parameters, the model's choice, log 39), is refused with bad
parameters, and otherwise gives the construction state; no step changes the parameters, and no step stops with a fault. -/
def Obligations.ParametersFixedNoFault : Prop :=
  (∀ p : Params,
    (p.valid = true ↔ p.borderLines ≤ p.fieldLines ∧ p.fieldLines ≤ p.slots ∧ 1 ≤ p.vsyncMin ∧
      p.vsyncMin < p.vsyncMax ∧ p.oddLo ≤ p.oddHi ∧ 1 ≤ p.interlaceHold ∧ 1 ≤ p.outW ∧ 1 ≤ p.cmdqCap ∧
      135 ≤ p.snapshotSize) ∧
    construct false p = .fault .resourceFault ∧
    (p.valid = true → construct true p = .next (State.construct p)) ∧
    (p.valid = false → construct true p = .refused .badConfig)) ∧
  ∀ s : State, (s.par.valid = false → step s = .refused .badConfig) ∧
    (∀ t, step s = .next t → t.par = s.par) ∧ SafeOutcome (step s)

end
end

