-- ==== Sys2Proof/Laws/Bytes.lean ====
section
/-! SUPPORT. The byte-order helpers and the front readers: what each gives on what its writer wrote. -/

namespace Sys2Proof

@[simp] theorem be16_length (v : Half) : (be16 v).length = 2 := rfl
@[simp] theorem be32_length (v : Word) : (be32 v).length = 4 := rfl

theorem ofBE16_extract (v : Half) : ofBE16 (v.extractLsb' 8 8) (v.extractLsb' 0 8) = v := by
  unfold ofBE16
  ext i hi
  simp only [BitVec.getElem_append, BitVec.getElem_extractLsb']
  split
  · simp [BitVec.getLsbD_eq_getElem hi]
  · rw [show 8 + (i - 8) = i by omega, BitVec.getLsbD_eq_getElem hi]

theorem ofBE32_extract (v : Word) :
    ofBE32 (v.extractLsb' 24 8) (v.extractLsb' 16 8) (v.extractLsb' 8 8) (v.extractLsb' 0 8) = v := by
  unfold ofBE32
  ext i hi
  simp only [BitVec.getElem_append, BitVec.getElem_extractLsb']
  split
  · split
    · simp [BitVec.getLsbD_eq_getElem hi]
    · rw [show 8 + (i - 8) = i by omega, BitVec.getLsbD_eq_getElem hi]
  · split
    · rw [show 16 + (i - 16) = i by omega, BitVec.getLsbD_eq_getElem hi]
    · rw [show 24 + (i - 16 - 8) = i by omega, BitVec.getLsbD_eq_getElem hi]

@[simp] theorem takeBE16_be16 (v : Half) (t : Bytes) : takeBE16 (be16 v ++ t) = some (v, t) := by
  simp [be16, takeBE16, ofBE16_extract]

@[simp] theorem takeBE32_be32 (v : Word) (t : Bytes) : takeBE32 (be32 v ++ t) = some (v, t) := by
  simp [be32, takeBE32, ofBE32_extract]

@[simp] theorem takeBytes_append (b t : Bytes) : takeBytes b.length (b ++ t) = some (b, t) := by
  simp [takeBytes]

@[simp] theorem takeBool_putBool (b : Bool) (t : Bytes) : takeBool (putBool b ++ t) = some (b, t) := by
  cases b <;> simp [putBool, takeBool]

theorem varintGroups_ne_nil (fuel d : Nat) (acc : Bytes) (h : acc ≠ []) : varintGroups fuel d acc ≠ [] := by
  induction fuel generalizing d acc with
  | zero => exact h
  | succ n ih =>
    simp only [varintGroups]
    split
    · exact h
    · exact ih _ _ (by simp)

theorem varintEncode_ne_nil (d : Nat) : varintEncode d ≠ [] := varintGroups_ne_nil _ _ _ (by simp)

theorem encodeEvent_ne_nil (delta : BitVec 63) (ty : Byte) (payload : Bytes) :
    encodeEvent delta ty payload ≠ [] := by simp [encodeEvent]

theorem encodeChunk_ne_nil (tag : Word) (payload : Bytes) (crc : Word) : encodeChunk tag payload crc ≠ [] := by
  simp [encodeChunk, be32]

end Sys2Proof
end

