-- ==== Sys2Proof/Laws/Memory.lean ====
section
/-! SUPPORT. Byte memories and line maps: what a read gives after each operation, and that every operation
keeps the canonical form. -/

namespace Sys2Proof.Machine

/-! ## Reads -/

theorem Memory.read_append (m n : Memory) (a : Nat) :
    Memory.read (m ++ n) a = if a ∈ m.map Prod.fst then Memory.read m a else Memory.read n a := by
  induction m with
  | nil => simp
  | cons c t ih =>
    obtain ⟨b, v⟩ := c
    by_cases h : b = a
    · simp [Memory.read, h]
    · simp [Memory.read, h, ih, Ne.symm h]

theorem Memory.read_eq_blank (m : Memory) (a : Nat) (h : a ∉ m.map Prod.fst) :
    Memory.read m a = Config.blankByte := by
  induction m with
  | nil => rfl
  | cons c t ih =>
    obtain ⟨b, v⟩ := c
    simp only [List.map_cons, List.mem_cons, not_or] at h
    simp [Memory.read, Ne.symm h.1, ih h.2]

theorem Memory.read_filter (m : Memory) (p : Nat → Bool) (a : Nat) (h : p a = true) :
    Memory.read (m.filter fun c => p c.1) a = Memory.read m a := by
  induction m with
  | nil => rfl
  | cons c t ih =>
    obtain ⟨b, v⟩ := c
    by_cases hb : b = a
    · subst hb
      simp [h, Memory.read]
    · cases hp : p b <;> simp [hp, Memory.read, hb, ih]

theorem Memory.read_below (m : Memory) (a x : Nat) (h : x < a) :
    Memory.read (m.below a) x = Memory.read m x :=
  Memory.read_filter m (fun y => decide (y < a)) x (by simpa using h)

theorem Memory.read_above (m : Memory) (a x : Nat) (h : a ≤ x) :
    Memory.read (m.above a) x = Memory.read m x :=
  Memory.read_filter m (fun y => decide (a ≤ y)) x (by simpa using h)

theorem Memory.mem_below (m : Memory) (a x : Nat) (h : x ∈ (m.below a).map Prod.fst) : x < a := by
  simp only [Memory.below, List.mem_map, List.mem_filter, decide_eq_true_eq] at h
  obtain ⟨c, ⟨_, hc⟩, rfl⟩ := h
  exact hc

theorem Memory.mem_above (m : Memory) (a x : Nat) (h : x ∈ (m.above a).map Prod.fst) : a ≤ x := by
  simp only [Memory.above, List.mem_map, List.mem_filter, decide_eq_true_eq] at h
  obtain ⟨c, ⟨_, hc⟩, rfl⟩ := h
  exact hc

theorem Memory.mem_cellsFrom (bs : Bytes) (a x : Nat) (h : x ∈ (Memory.cellsFrom a bs).map Prod.fst) :
    a ≤ x ∧ x < a + bs.length := by
  induction bs generalizing a with
  | nil => simp [Memory.cellsFrom] at h
  | cons v t ih =>
    simp only [Memory.cellsFrom] at h
    split at h
    · have := ih (a + 1) h
      simp only [List.length_cons]; omega
    · simp only [List.map_cons, List.mem_cons] at h
      rcases h with rfl | h
      · simp
      · have := ih (a + 1) h
        simp only [List.length_cons]; omega

theorem Memory.read_cellsFrom (bs : Bytes) (a k : Nat) :
    Memory.read (Memory.cellsFrom a bs) (a + k) = bs.getD k Config.blankByte := by
  induction bs generalizing a k with
  | nil => simp [Memory.cellsFrom, Memory.read]
  | cons v t ih =>
    cases k with
    | zero =>
      simp only [Memory.cellsFrom]
      split
      · next hv =>
        rw [Memory.read_eq_blank, ← hv]; · simp
        intro hm
        have := Memory.mem_cellsFrom t (a + 1) (a + 0) hm
        omega
      · simp [Memory.read]
    | succ k =>
      have e : a + (k + 1) = a + 1 + k := by omega
      have h := ih (a + 1) k
      simp only [Memory.cellsFrom]
      split
      · rw [e, h]; simp
      · rw [Memory.read, if_neg (by omega), e, h]; simp

/-- What `writeBytes` does: the bytes in its range are the new ones, every other byte is as before. -/
theorem Memory.read_writeBytes (m : Memory) (a x : Nat) (bs : Bytes) :
    Memory.read (m.writeBytes a bs) x =
      if a ≤ x ∧ x < a + bs.length then bs.getD (x - a) Config.blankByte else Memory.read m x := by
  unfold Memory.writeBytes
  rw [Memory.read_append, Memory.read_append]
  by_cases h1 : x < a
  · have n2 : ¬(a ≤ x ∧ x < a + bs.length) := by omega
    have n3 : x ∉ (Memory.cellsFrom a bs).map Prod.fst := fun h => by
      have := Memory.mem_cellsFrom bs a x h; omega
    rw [if_neg n2]
    by_cases hm : x ∈ (m.below a).map Prod.fst
    · rw [if_pos (by simp only [List.map_append, List.mem_append]; exact .inl hm), if_pos hm,
        Memory.read_below m a x h1]
    · rw [if_neg (by simp only [List.map_append, List.mem_append, not_or]; exact ⟨hm, n3⟩),
        Memory.read_eq_blank _ _ (fun h => by have := Memory.mem_above m _ x h; omega),
        ← Memory.read_below m a x h1, Memory.read_eq_blank _ _ hm]
  · have hb : x ∉ (m.below a).map Prod.fst := fun h => h1 (Memory.mem_below m a x h)
    obtain ⟨k, rfl⟩ : ∃ k, x = a + k := ⟨x - a, by omega⟩
    by_cases h2 : k < bs.length
    · rw [if_pos (show a ≤ a + k ∧ a + k < a + bs.length by omega), Nat.add_sub_cancel_left,
        ← Memory.read_cellsFrom bs a k]
      by_cases hm : a + k ∈ (Memory.cellsFrom a bs).map Prod.fst
      · rw [if_pos (by simp only [List.map_append, List.mem_append]; exact .inr hm), if_neg hb]
      · rw [if_neg (by simp only [List.map_append, List.mem_append, not_or]; exact ⟨hb, hm⟩),
          Memory.read_eq_blank _ _ (fun h => by have := Memory.mem_above m _ _ h; omega),
          Memory.read_eq_blank _ _ hm]
    · have hm : a + k ∉ (Memory.cellsFrom a bs).map Prod.fst := fun h => by
        have := Memory.mem_cellsFrom bs a _ h; omega
      rw [if_neg (show ¬(a ≤ a + k ∧ a + k < a + bs.length) by omega),
        if_neg (by simp only [List.map_append, List.mem_append, not_or]; exact ⟨hb, hm⟩),
        Memory.read_above m _ _ (by omega)]

/-- The moved cells of a block read as the source does. -/
theorem Memory.read_moved (m : Memory) (a b n x : Nat) (h1 : a ≤ x) (h2 : x < a + n) :
    Memory.read (((m.above b).below (b + n)).map fun c => (c.1 - b + a, c.2)) x =
      Memory.read m (x - a + b) := by
  rw [← Memory.read_above m b (x - a + b) (by omega),
    ← Memory.read_below (m.above b) (b + n) (x - a + b) (by omega)]
  have hmem : ∀ c ∈ (m.above b).below (b + n), b ≤ c.1 := by
    intro c hc
    exact Memory.mem_above m b c.1 (List.mem_map_of_mem (List.mem_of_mem_filter hc))
  generalize (m.above b).below (b + n) = l at *
  induction l with
  | nil => rfl
  | cons c t ih =>
    obtain ⟨y, v⟩ := c
    have hy := hmem (y, v) (by simp)
    have ht := ih fun c hc => hmem c (by simp [hc])
    by_cases he : y = x - a + b
    · have : y - b + a = x := by omega
      rw [List.map_cons, Memory.read, Memory.read, if_pos this, if_pos he]
    · have : ¬y - b + a = x := by simp only at hy; omega
      simp only [List.map_cons, Memory.read, if_neg this, if_neg he, ht]

/-- What `copyBlock` does: its block reads as the source's, every other byte is as before. -/
theorem Memory.read_copyBlock (dst src : Memory) (a b n x : Nat) :
    Memory.read (dst.copyBlock a src b n) x =
      if a ≤ x ∧ x < a + n then Memory.read src (x - a + b) else Memory.read dst x := by
  unfold Memory.copyBlock
  have hmid : ∀ y, y ∈ (((src.above b).below (b + n)).map fun c => (c.1 - b + a, c.2)).map Prod.fst →
      a ≤ y ∧ y < a + n := by
    intro y hy
    simp only [List.map_map, List.mem_map, Function.comp] at hy
    obtain ⟨c, hc, rfl⟩ := hy
    have h1 := Memory.mem_below _ _ c.1 (List.mem_map_of_mem hc)
    have h2 := Memory.mem_above src b c.1 (List.mem_map_of_mem (List.mem_of_mem_filter hc))
    omega
  rw [Memory.read_append, Memory.read_append]
  by_cases h1 : x < a
  · rw [if_neg (show ¬(a ≤ x ∧ x < a + n) by omega)]
    by_cases hm : x ∈ (dst.below a).map Prod.fst
    · rw [if_pos (by simp only [List.map_append, List.mem_append]; exact .inl hm), if_pos hm,
        Memory.read_below dst a x h1]
    · rw [if_neg (by
          simp only [List.map_append, List.mem_append, not_or]
          exact ⟨hm, fun h => by have := hmid x h; omega⟩),
        Memory.read_eq_blank _ _ (fun h => by have := Memory.mem_above dst _ x h; omega),
        ← Memory.read_below dst a x h1, Memory.read_eq_blank _ _ hm]
  · have hb : x ∉ (dst.below a).map Prod.fst := fun h => h1 (Memory.mem_below dst a x h)
    by_cases h2 : x < a + n
    · rw [if_pos (show a ≤ x ∧ x < a + n by omega), ← Memory.read_moved src a b n x (by omega) h2]
      by_cases hm : x ∈ (((src.above b).below (b + n)).map fun c => (c.1 - b + a, c.2)).map Prod.fst
      · rw [if_pos (by simp only [List.map_append, List.mem_append]; exact .inr hm), if_neg hb]
      · rw [if_neg (by simp only [List.map_append, List.mem_append, not_or]; exact ⟨hb, hm⟩),
          Memory.read_eq_blank _ _ (fun h => by have := Memory.mem_above dst _ x h; omega),
          Memory.read_eq_blank _ _ hm]
    · rw [if_neg (show ¬(a ≤ x ∧ x < a + n) by omega),
        if_neg (by
          simp only [List.map_append, List.mem_append, not_or]
          exact ⟨hb, fun h => by have := hmid x h; omega⟩),
        Memory.read_above dst _ x (by omega)]

/-- A write puts the byte at its address. -/
theorem Memory.read_write_self (m : Memory) (hm : m.wf) (a : Nat) (v : Byte) :
    Memory.read (m.write a v) a = v := by
  induction m with
  | nil =>
    simp only [Memory.write]
    split <;> simp_all [Memory.read]
  | cons c t ih =>
    obtain ⟨b, w⟩ := c
    have hw := List.pairwise_cons.1 hm.1
    have ht : Memory.wf t := ⟨hw.2, fun c hc => hm.2 c (by simp [hc])⟩
    have hn : ∀ a, a ≤ b → a ∉ t.map Prod.fst := by
      intro a ha h
      obtain ⟨c, hc, rfl⟩ := List.mem_map.1 h
      have := hw.1 c hc
      omega
    simp only [Memory.write]
    split
    · next hlt =>
      split
      · next hv => rw [hv, Memory.read, if_neg (by omega), Memory.read_eq_blank t a (hn a (by omega))]
      · simp [Memory.read]
    · split
      · next he =>
        split
        · next hv => rw [hv, Memory.read_eq_blank t a (hn a (by omega))]
        · simp [Memory.read]
      · rw [Memory.read, if_neg (by omega), ih ht]

/-- A write leaves every other address as it was. -/
theorem Memory.read_write_other (m : Memory) (a x : Nat) (v : Byte) (h : x ≠ a) :
    Memory.read (m.write a v) x = Memory.read m x := by
  induction m with
  | nil =>
    simp only [Memory.write]
    split <;> simp [Memory.read, Ne.symm h]
  | cons c t ih =>
    obtain ⟨b, w⟩ := c
    simp only [Memory.write]
    split
    · split
      · rfl
      · simp [Memory.read, Ne.symm h]
    · split
      · next he =>
        split
        · simp [Memory.read, ← he, Ne.symm h]
        · simp [Memory.read, ← he, Ne.symm h]
      · simp only [Memory.read, ih]

/-! ## The canonical form -/

theorem Memory.wf_nil : Memory.wf [] := ⟨List.Pairwise.nil, by simp⟩

theorem Memory.wf_filter (m : Memory) (p : Host.Cell → Bool) (h : m.wf) : Memory.wf (m.filter p) :=
  ⟨h.1.filter p, fun c hc => h.2 c (List.mem_of_mem_filter hc)⟩

theorem Memory.wf_append (m n : Memory) (hm : m.wf) (hn : n.wf)
    (h : ∀ x ∈ m, ∀ y ∈ n, x.1 < y.1) : Memory.wf (m ++ n) := by
  refine ⟨List.pairwise_append.2 ⟨hm.1, hn.1, h⟩, fun c hc => ?_⟩
  rcases List.mem_append.1 hc with hc | hc
  · exact hm.2 c hc
  · exact hn.2 c hc

theorem Memory.mem_write (m : Memory) (a : Nat) (v : Byte) (c : Host.Cell) (h : c ∈ m.write a v) :
    c = (a, v) ∨ c ∈ m := by
  induction m with
  | nil =>
    simp only [Memory.write] at h
    split at h <;> simp_all
  | cons d t ih =>
    obtain ⟨b, w⟩ := d
    simp only [Memory.write] at h
    split at h
    · split at h <;> simp_all
    · split at h
      · split at h
        · exact .inr (by simp [h])
        · simp only [List.mem_cons] at h ⊢
          tauto
      · simp only [List.mem_cons] at h ⊢
        rcases h with h | h
        · exact .inr (.inl h)
        · rcases ih h with h | h
          · exact .inl h
          · exact .inr (.inr h)

theorem Memory.wf_write (m : Memory) (a : Nat) (v : Byte) (h : m.wf) : Memory.wf (m.write a v) := by
  induction m with
  | nil =>
    simp only [Memory.write]
    split
    · exact Memory.wf_nil
    · next hv => exact ⟨List.pairwise_singleton _ _, by simpa using hv⟩
  | cons c t ih =>
    obtain ⟨b, w⟩ := c
    have hw := List.pairwise_cons.1 h.1
    have ht : Memory.wf t := ⟨hw.2, fun c hc => h.2 c (by simp [hc])⟩
    have hbw : w ≠ Config.blankByte := h.2 (b, w) (by simp)
    simp only [Memory.write]
    split
    · next hlt =>
      split
      · exact h
      · next hv =>
        refine ⟨List.pairwise_cons.2 ⟨?_, h.1⟩, ?_⟩
        · intro c hc
          rcases List.mem_cons.1 hc with rfl | hc
          · exact hlt
          · exact Nat.lt_trans hlt (hw.1 c hc)
        · intro c hc
          rcases List.mem_cons.1 hc with rfl | hc
          · exact hv
          · exact h.2 c hc
    · split
      · next he =>
        split
        · exact ht
        · next hv =>
          refine ⟨List.pairwise_cons.2 ⟨fun c hc => he ▸ hw.1 c hc, hw.2⟩, ?_⟩
          intro c hc
          rcases List.mem_cons.1 hc with rfl | hc
          · exact hv
          · exact ht.2 c hc
      · next h1 h2 =>
        have hi := ih ht
        refine ⟨List.pairwise_cons.2 ⟨?_, hi.1⟩, ?_⟩
        · intro c hc
          rcases Memory.mem_write t a v c hc with rfl | hc
          · simp only; omega
          · exact hw.1 c hc
        · intro c hc
          rcases List.mem_cons.1 hc with rfl | hc
          · exact hbw
          · exact hi.2 c hc

theorem Memory.wf_cellsFrom (bs : Bytes) (a : Nat) : Memory.wf (Memory.cellsFrom a bs) := by
  induction bs generalizing a with
  | nil => exact Memory.wf_nil
  | cons v t ih =>
    have h := ih (a + 1)
    simp only [Memory.cellsFrom]
    split
    · exact h
    · next hv =>
      refine ⟨List.pairwise_cons.2 ⟨fun c hc => ?_, h.1⟩, fun c hc => ?_⟩
      · have := Memory.mem_cellsFrom t (a + 1) c.1 (List.mem_map_of_mem hc)
        simp only; omega
      · rcases List.mem_cons.1 hc with rfl | hc
        · exact hv
        · exact h.2 c hc

theorem Memory.wf_writeBytes (m : Memory) (a : Nat) (bs : Bytes) (h : m.wf) :
    Memory.wf (m.writeBytes a bs) := by
  have hb : Memory.wf (m.below a) := Memory.wf_filter m _ h
  have ha : Memory.wf (m.above (a + bs.length)) := Memory.wf_filter m _ h
  have hbnd : ∀ c ∈ Memory.cellsFrom a bs, a ≤ c.1 ∧ c.1 < a + bs.length := fun c hc =>
    Memory.mem_cellsFrom bs a c.1 (List.mem_map_of_mem hc)
  refine Memory.wf_append _ _ (Memory.wf_append _ _ hb (Memory.wf_cellsFrom bs a) ?_) ha ?_
  · intro x hx y hy
    have h1 := Memory.mem_below m a x.1 (List.mem_map_of_mem hx)
    have h2 := hbnd y hy
    omega
  · intro x hx y hy
    have h2 := Memory.mem_above m _ y.1 (List.mem_map_of_mem hy)
    rcases List.mem_append.1 hx with hx | hx
    · have h1 := Memory.mem_below m a x.1 (List.mem_map_of_mem hx)
      omega
    · have h1 := hbnd x hx
      omega

theorem Memory.wf_copyBlock (dst src : Memory) (a b n : Nat) (hd : dst.wf) (hs : src.wf) :
    Memory.wf (dst.copyBlock a src b n) := by
  have hb : Memory.wf (dst.below a) := Memory.wf_filter dst _ hd
  have ha : Memory.wf (dst.above (a + n)) := Memory.wf_filter dst _ hd
  have hl : Memory.wf ((src.above b).below (b + n)) :=
    Memory.wf_filter _ _ (Memory.wf_filter src _ hs)
  have hin : ∀ c ∈ (src.above b).below (b + n), b ≤ c.1 ∧ c.1 < b + n := fun c hc =>
    ⟨Memory.mem_above src b c.1 (List.mem_map_of_mem (List.mem_of_mem_filter hc)),
      Memory.mem_below _ _ c.1 (List.mem_map_of_mem hc)⟩
  have hmid : Memory.wf (((src.above b).below (b + n)).map fun c => (c.1 - b + a, c.2)) := by
    refine ⟨List.pairwise_map.2 (List.Pairwise.imp_of_mem ?_ hl.1), ?_⟩
    · intro x y hx hy hxy
      have h1 := hin x hx
      have h2 := hin y hy
      simp only; omega
    · intro c hc
      obtain ⟨d, hd, rfl⟩ := List.mem_map.1 hc
      exact hl.2 d hd
  have hbnd : ∀ c ∈ (((src.above b).below (b + n)).map fun c => (c.1 - b + a, c.2)),
      a ≤ c.1 ∧ c.1 < a + n := by
    intro c hc
    obtain ⟨d, hd, rfl⟩ := List.mem_map.1 hc
    have := hin d hd
    simp only; omega
  refine Memory.wf_append _ _ (Memory.wf_append _ _ hb hmid ?_) ha ?_
  · intro x hx y hy
    have h1 := Memory.mem_below dst a x.1 (List.mem_map_of_mem hx)
    have h2 := hbnd y hy
    omega
  · intro x hx y hy
    have h2 := Memory.mem_above dst _ y.1 (List.mem_map_of_mem hy)
    rcases List.mem_append.1 hx with hx | hx
    · have h1 := Memory.mem_below dst a x.1 (List.mem_map_of_mem hx)
      omega
    · have h1 := hbnd x hx
      omega

/-! ## Line maps -/

/-- What `insert` does: line i holds the payload, every other line is as before. -/
theorem LineMap.find_insert (m : LineMap) (i j : Nat) (p : Bytes) :
    LineMap.find (LineMap.insert m i p) j = if i = j then some p else LineMap.find m j := by
  induction m with
  | nil => simp [LineMap.insert, LineMap.find]
  | cons c t ih =>
    obtain ⟨k, q⟩ := c
    simp only [LineMap.insert]
    split
    · simp [LineMap.find]
    · split
      · next he =>
        simp only [LineMap.find, ← he]
        split <;> rfl
      · next h1 h2 =>
        simp only [LineMap.find, ih]
        split
        · next hk => rw [if_neg (by omega)]
        · rfl

theorem LineMap.mem_insert (m : LineMap) (i : Nat) (p : Bytes) (c : Nat × Bytes)
    (h : c ∈ LineMap.insert m i p) : c = (i, p) ∨ c ∈ m := by
  induction m with
  | nil => simpa [LineMap.insert] using h
  | cons d t ih =>
    obtain ⟨k, q⟩ := d
    simp only [LineMap.insert] at h
    split at h
    · simpa using h
    · split at h
      · simp only [List.mem_cons] at h ⊢
        tauto
      · simp only [List.mem_cons] at h ⊢
        rcases h with h | h
        · exact .inr (.inl h)
        · rcases ih h with h | h
          · exact .inl h
          · exact .inr (.inr h)

theorem LineMap.wf_insert (m : LineMap) (i : Nat) (p : Bytes) (h : m.wf) :
    LineMap.wf (LineMap.insert m i p) := by
  induction m with
  | nil => exact List.pairwise_singleton _ _
  | cons c t ih =>
    obtain ⟨k, q⟩ := c
    have hw := List.pairwise_cons.1 h
    have hi := ih hw.2
    simp only [LineMap.insert]
    split
    · next hlt =>
      refine List.pairwise_cons.2 ⟨fun c hc => ?_, h⟩
      rcases List.mem_cons.1 hc with rfl | hc
      · exact hlt
      · exact Nat.lt_trans hlt (hw.1 c hc)
    · split
      · next he => exact List.pairwise_cons.2 ⟨fun c hc => he ▸ hw.1 c hc, hw.2⟩
      · refine List.pairwise_cons.2 ⟨fun c hc => ?_, hi⟩
        rcases LineMap.mem_insert t i p c hc with rfl | hc
        · simp only; omega
        · exact hw.1 c hc

/-- After reset every memory is in canonical form. -/
theorem reset_memory_wf :
    State.reset.pipe.decoded.wf ∧ State.reset.pipe.rows0.wf ∧ State.reset.pipe.rows1.wf ∧
      State.reset.pipe.fb.wf := ⟨Memory.wf_nil, Memory.wf_nil, Memory.wf_nil, Memory.wf_nil⟩

end Sys2Proof.Machine
end

