-- ==== Sys2Proof/Laws/State.lean ====
section
/-! SUPPORT. Every field of the state after each named update: the updated field is the new value, the
others are as before. -/

namespace Sys2Proof.Machine

@[simp] theorem State.withChip_par (s : State) (v : Chip) : (s.withChip v).par = s.par := rfl
@[simp] theorem State.withChip_chip (s : State) (v : Chip) : (s.withChip v).chip = v := rfl
@[simp] theorem State.withChip_keys (s : State) (v : Chip) : (s.withChip v).keys = s.keys := rfl
@[simp] theorem State.withChip_pipe (s : State) (v : Chip) : (s.withChip v).pipe = s.pipe := rfl
@[simp] theorem State.withChip_sync (s : State) (v : Chip) : (s.withChip v).sync = s.sync := rfl
@[simp] theorem State.withChip_demo (s : State) (v : Chip) : (s.withChip v).demo = s.demo := rfl
@[simp] theorem State.withChip_dec (s : State) (v : Chip) : (s.withChip v).dec = s.dec := rfl
@[simp] theorem State.withChip_loader (s : State) (v : Chip) : (s.withChip v).loader = s.loader := rfl
@[simp] theorem State.withChip_input (s : State) (v : Chip) : (s.withChip v).input = s.input := rfl
@[simp] theorem State.withChip_caller (s : State) (v : Chip) : (s.withChip v).caller = s.caller := rfl
@[simp] theorem State.withChip_result (s : State) (v : Chip) : (s.withChip v).result = s.result := rfl
@[simp] theorem State.withChip_outbox (s : State) (v : Chip) : (s.withChip v).outbox = s.outbox := rfl
@[simp] theorem State.withChip_draws (s : State) (v : Chip) : (s.withChip v).draws = s.draws := rfl

@[simp] theorem State.withKeys_par (s : State) (v : Keys) : (s.withKeys v).par = s.par := rfl
@[simp] theorem State.withKeys_chip (s : State) (v : Keys) : (s.withKeys v).chip = s.chip := rfl
@[simp] theorem State.withKeys_keys (s : State) (v : Keys) : (s.withKeys v).keys = v := rfl
@[simp] theorem State.withKeys_pipe (s : State) (v : Keys) : (s.withKeys v).pipe = s.pipe := rfl
@[simp] theorem State.withKeys_sync (s : State) (v : Keys) : (s.withKeys v).sync = s.sync := rfl
@[simp] theorem State.withKeys_demo (s : State) (v : Keys) : (s.withKeys v).demo = s.demo := rfl
@[simp] theorem State.withKeys_dec (s : State) (v : Keys) : (s.withKeys v).dec = s.dec := rfl
@[simp] theorem State.withKeys_loader (s : State) (v : Keys) : (s.withKeys v).loader = s.loader := rfl
@[simp] theorem State.withKeys_input (s : State) (v : Keys) : (s.withKeys v).input = s.input := rfl
@[simp] theorem State.withKeys_caller (s : State) (v : Keys) : (s.withKeys v).caller = s.caller := rfl
@[simp] theorem State.withKeys_result (s : State) (v : Keys) : (s.withKeys v).result = s.result := rfl
@[simp] theorem State.withKeys_outbox (s : State) (v : Keys) : (s.withKeys v).outbox = s.outbox := rfl
@[simp] theorem State.withKeys_draws (s : State) (v : Keys) : (s.withKeys v).draws = s.draws := rfl

@[simp] theorem State.withPipe_par (s : State) (v : Pipe) : (s.withPipe v).par = s.par := rfl
@[simp] theorem State.withPipe_chip (s : State) (v : Pipe) : (s.withPipe v).chip = s.chip := rfl
@[simp] theorem State.withPipe_keys (s : State) (v : Pipe) : (s.withPipe v).keys = s.keys := rfl
@[simp] theorem State.withPipe_pipe (s : State) (v : Pipe) : (s.withPipe v).pipe = v := rfl
@[simp] theorem State.withPipe_sync (s : State) (v : Pipe) : (s.withPipe v).sync = s.sync := rfl
@[simp] theorem State.withPipe_demo (s : State) (v : Pipe) : (s.withPipe v).demo = s.demo := rfl
@[simp] theorem State.withPipe_dec (s : State) (v : Pipe) : (s.withPipe v).dec = s.dec := rfl
@[simp] theorem State.withPipe_loader (s : State) (v : Pipe) : (s.withPipe v).loader = s.loader := rfl
@[simp] theorem State.withPipe_input (s : State) (v : Pipe) : (s.withPipe v).input = s.input := rfl
@[simp] theorem State.withPipe_caller (s : State) (v : Pipe) : (s.withPipe v).caller = s.caller := rfl
@[simp] theorem State.withPipe_result (s : State) (v : Pipe) : (s.withPipe v).result = s.result := rfl
@[simp] theorem State.withPipe_outbox (s : State) (v : Pipe) : (s.withPipe v).outbox = s.outbox := rfl
@[simp] theorem State.withPipe_draws (s : State) (v : Pipe) : (s.withPipe v).draws = s.draws := rfl

@[simp] theorem State.withSync_par (s : State) (v : Sync) : (s.withSync v).par = s.par := rfl
@[simp] theorem State.withSync_chip (s : State) (v : Sync) : (s.withSync v).chip = s.chip := rfl
@[simp] theorem State.withSync_keys (s : State) (v : Sync) : (s.withSync v).keys = s.keys := rfl
@[simp] theorem State.withSync_pipe (s : State) (v : Sync) : (s.withSync v).pipe = s.pipe := rfl
@[simp] theorem State.withSync_sync (s : State) (v : Sync) : (s.withSync v).sync = v := rfl
@[simp] theorem State.withSync_demo (s : State) (v : Sync) : (s.withSync v).demo = s.demo := rfl
@[simp] theorem State.withSync_dec (s : State) (v : Sync) : (s.withSync v).dec = s.dec := rfl
@[simp] theorem State.withSync_loader (s : State) (v : Sync) : (s.withSync v).loader = s.loader := rfl
@[simp] theorem State.withSync_input (s : State) (v : Sync) : (s.withSync v).input = s.input := rfl
@[simp] theorem State.withSync_caller (s : State) (v : Sync) : (s.withSync v).caller = s.caller := rfl
@[simp] theorem State.withSync_result (s : State) (v : Sync) : (s.withSync v).result = s.result := rfl
@[simp] theorem State.withSync_outbox (s : State) (v : Sync) : (s.withSync v).outbox = s.outbox := rfl
@[simp] theorem State.withSync_draws (s : State) (v : Sync) : (s.withSync v).draws = s.draws := rfl

@[simp] theorem State.withDemo_par (s : State) (v : Demo) : (s.withDemo v).par = s.par := rfl
@[simp] theorem State.withDemo_chip (s : State) (v : Demo) : (s.withDemo v).chip = s.chip := rfl
@[simp] theorem State.withDemo_keys (s : State) (v : Demo) : (s.withDemo v).keys = s.keys := rfl
@[simp] theorem State.withDemo_pipe (s : State) (v : Demo) : (s.withDemo v).pipe = s.pipe := rfl
@[simp] theorem State.withDemo_sync (s : State) (v : Demo) : (s.withDemo v).sync = s.sync := rfl
@[simp] theorem State.withDemo_demo (s : State) (v : Demo) : (s.withDemo v).demo = v := rfl
@[simp] theorem State.withDemo_dec (s : State) (v : Demo) : (s.withDemo v).dec = s.dec := rfl
@[simp] theorem State.withDemo_loader (s : State) (v : Demo) : (s.withDemo v).loader = s.loader := rfl
@[simp] theorem State.withDemo_input (s : State) (v : Demo) : (s.withDemo v).input = s.input := rfl
@[simp] theorem State.withDemo_caller (s : State) (v : Demo) : (s.withDemo v).caller = s.caller := rfl
@[simp] theorem State.withDemo_result (s : State) (v : Demo) : (s.withDemo v).result = s.result := rfl
@[simp] theorem State.withDemo_outbox (s : State) (v : Demo) : (s.withDemo v).outbox = s.outbox := rfl
@[simp] theorem State.withDemo_draws (s : State) (v : Demo) : (s.withDemo v).draws = s.draws := rfl

@[simp] theorem State.withDec_par (s : State) (v : LineDec) : (s.withDec v).par = s.par := rfl
@[simp] theorem State.withDec_chip (s : State) (v : LineDec) : (s.withDec v).chip = s.chip := rfl
@[simp] theorem State.withDec_keys (s : State) (v : LineDec) : (s.withDec v).keys = s.keys := rfl
@[simp] theorem State.withDec_pipe (s : State) (v : LineDec) : (s.withDec v).pipe = s.pipe := rfl
@[simp] theorem State.withDec_sync (s : State) (v : LineDec) : (s.withDec v).sync = s.sync := rfl
@[simp] theorem State.withDec_demo (s : State) (v : LineDec) : (s.withDec v).demo = s.demo := rfl
@[simp] theorem State.withDec_dec (s : State) (v : LineDec) : (s.withDec v).dec = v := rfl
@[simp] theorem State.withDec_loader (s : State) (v : LineDec) : (s.withDec v).loader = s.loader := rfl
@[simp] theorem State.withDec_input (s : State) (v : LineDec) : (s.withDec v).input = s.input := rfl
@[simp] theorem State.withDec_caller (s : State) (v : LineDec) : (s.withDec v).caller = s.caller := rfl
@[simp] theorem State.withDec_result (s : State) (v : LineDec) : (s.withDec v).result = s.result := rfl
@[simp] theorem State.withDec_outbox (s : State) (v : LineDec) : (s.withDec v).outbox = s.outbox := rfl
@[simp] theorem State.withDec_draws (s : State) (v : LineDec) : (s.withDec v).draws = s.draws := rfl

@[simp] theorem State.withLoader_par (s : State) (v : Loader) : (s.withLoader v).par = s.par := rfl
@[simp] theorem State.withLoader_chip (s : State) (v : Loader) : (s.withLoader v).chip = s.chip := rfl
@[simp] theorem State.withLoader_keys (s : State) (v : Loader) : (s.withLoader v).keys = s.keys := rfl
@[simp] theorem State.withLoader_pipe (s : State) (v : Loader) : (s.withLoader v).pipe = s.pipe := rfl
@[simp] theorem State.withLoader_sync (s : State) (v : Loader) : (s.withLoader v).sync = s.sync := rfl
@[simp] theorem State.withLoader_demo (s : State) (v : Loader) : (s.withLoader v).demo = s.demo := rfl
@[simp] theorem State.withLoader_dec (s : State) (v : Loader) : (s.withLoader v).dec = s.dec := rfl
@[simp] theorem State.withLoader_loader (s : State) (v : Loader) : (s.withLoader v).loader = v := rfl
@[simp] theorem State.withLoader_input (s : State) (v : Loader) : (s.withLoader v).input = s.input := rfl
@[simp] theorem State.withLoader_caller (s : State) (v : Loader) : (s.withLoader v).caller = s.caller := rfl
@[simp] theorem State.withLoader_result (s : State) (v : Loader) : (s.withLoader v).result = s.result := rfl
@[simp] theorem State.withLoader_outbox (s : State) (v : Loader) : (s.withLoader v).outbox = s.outbox := rfl
@[simp] theorem State.withLoader_draws (s : State) (v : Loader) : (s.withLoader v).draws = s.draws := rfl

@[simp] theorem State.withInput_par (s : State) (v : List Item) : (s.withInput v).par = s.par := rfl
@[simp] theorem State.withInput_chip (s : State) (v : List Item) : (s.withInput v).chip = s.chip := rfl
@[simp] theorem State.withInput_keys (s : State) (v : List Item) : (s.withInput v).keys = s.keys := rfl
@[simp] theorem State.withInput_pipe (s : State) (v : List Item) : (s.withInput v).pipe = s.pipe := rfl
@[simp] theorem State.withInput_sync (s : State) (v : List Item) : (s.withInput v).sync = s.sync := rfl
@[simp] theorem State.withInput_demo (s : State) (v : List Item) : (s.withInput v).demo = s.demo := rfl
@[simp] theorem State.withInput_dec (s : State) (v : List Item) : (s.withInput v).dec = s.dec := rfl
@[simp] theorem State.withInput_loader (s : State) (v : List Item) : (s.withInput v).loader = s.loader := rfl
@[simp] theorem State.withInput_input (s : State) (v : List Item) : (s.withInput v).input = v := rfl
@[simp] theorem State.withInput_caller (s : State) (v : List Item) : (s.withInput v).caller = s.caller := rfl
@[simp] theorem State.withInput_result (s : State) (v : List Item) : (s.withInput v).result = s.result := rfl
@[simp] theorem State.withInput_outbox (s : State) (v : List Item) : (s.withInput v).outbox = s.outbox := rfl
@[simp] theorem State.withInput_draws (s : State) (v : List Item) : (s.withInput v).draws = s.draws := rfl

@[simp] theorem State.withCaller_par (s : State) (v : Agent) : (s.withCaller v).par = s.par := rfl
@[simp] theorem State.withCaller_chip (s : State) (v : Agent) : (s.withCaller v).chip = s.chip := rfl
@[simp] theorem State.withCaller_keys (s : State) (v : Agent) : (s.withCaller v).keys = s.keys := rfl
@[simp] theorem State.withCaller_pipe (s : State) (v : Agent) : (s.withCaller v).pipe = s.pipe := rfl
@[simp] theorem State.withCaller_sync (s : State) (v : Agent) : (s.withCaller v).sync = s.sync := rfl
@[simp] theorem State.withCaller_demo (s : State) (v : Agent) : (s.withCaller v).demo = s.demo := rfl
@[simp] theorem State.withCaller_dec (s : State) (v : Agent) : (s.withCaller v).dec = s.dec := rfl
@[simp] theorem State.withCaller_loader (s : State) (v : Agent) : (s.withCaller v).loader = s.loader := rfl
@[simp] theorem State.withCaller_input (s : State) (v : Agent) : (s.withCaller v).input = s.input := rfl
@[simp] theorem State.withCaller_caller (s : State) (v : Agent) : (s.withCaller v).caller = v := rfl
@[simp] theorem State.withCaller_result (s : State) (v : Agent) : (s.withCaller v).result = s.result := rfl
@[simp] theorem State.withCaller_outbox (s : State) (v : Agent) : (s.withCaller v).outbox = s.outbox := rfl
@[simp] theorem State.withCaller_draws (s : State) (v : Agent) : (s.withCaller v).draws = s.draws := rfl

@[simp] theorem State.withResult_par (s : State) (v : Result) : (s.withResult v).par = s.par := rfl
@[simp] theorem State.withResult_chip (s : State) (v : Result) : (s.withResult v).chip = s.chip := rfl
@[simp] theorem State.withResult_keys (s : State) (v : Result) : (s.withResult v).keys = s.keys := rfl
@[simp] theorem State.withResult_pipe (s : State) (v : Result) : (s.withResult v).pipe = s.pipe := rfl
@[simp] theorem State.withResult_sync (s : State) (v : Result) : (s.withResult v).sync = s.sync := rfl
@[simp] theorem State.withResult_demo (s : State) (v : Result) : (s.withResult v).demo = s.demo := rfl
@[simp] theorem State.withResult_dec (s : State) (v : Result) : (s.withResult v).dec = s.dec := rfl
@[simp] theorem State.withResult_loader (s : State) (v : Result) : (s.withResult v).loader = s.loader := rfl
@[simp] theorem State.withResult_input (s : State) (v : Result) : (s.withResult v).input = s.input := rfl
@[simp] theorem State.withResult_caller (s : State) (v : Result) : (s.withResult v).caller = s.caller := rfl
@[simp] theorem State.withResult_result (s : State) (v : Result) : (s.withResult v).result = v := rfl
@[simp] theorem State.withResult_outbox (s : State) (v : Result) : (s.withResult v).outbox = s.outbox := rfl
@[simp] theorem State.withResult_draws (s : State) (v : Result) : (s.withResult v).draws = s.draws := rfl

@[simp] theorem State.withOutbox_par (s : State) (v : List Output) : (s.withOutbox v).par = s.par := rfl
@[simp] theorem State.withOutbox_chip (s : State) (v : List Output) : (s.withOutbox v).chip = s.chip := rfl
@[simp] theorem State.withOutbox_keys (s : State) (v : List Output) : (s.withOutbox v).keys = s.keys := rfl
@[simp] theorem State.withOutbox_pipe (s : State) (v : List Output) : (s.withOutbox v).pipe = s.pipe := rfl
@[simp] theorem State.withOutbox_sync (s : State) (v : List Output) : (s.withOutbox v).sync = s.sync := rfl
@[simp] theorem State.withOutbox_demo (s : State) (v : List Output) : (s.withOutbox v).demo = s.demo := rfl
@[simp] theorem State.withOutbox_dec (s : State) (v : List Output) : (s.withOutbox v).dec = s.dec := rfl
@[simp] theorem State.withOutbox_loader (s : State) (v : List Output) : (s.withOutbox v).loader = s.loader := rfl
@[simp] theorem State.withOutbox_input (s : State) (v : List Output) : (s.withOutbox v).input = s.input := rfl
@[simp] theorem State.withOutbox_caller (s : State) (v : List Output) : (s.withOutbox v).caller = s.caller := rfl
@[simp] theorem State.withOutbox_result (s : State) (v : List Output) : (s.withOutbox v).result = s.result := rfl
@[simp] theorem State.withOutbox_outbox (s : State) (v : List Output) : (s.withOutbox v).outbox = v := rfl
@[simp] theorem State.withOutbox_draws (s : State) (v : List Output) : (s.withOutbox v).draws = s.draws := rfl

@[simp] theorem State.withDraws_par (s : State) (v : Nat) : (s.withDraws v).par = s.par := rfl
@[simp] theorem State.withDraws_chip (s : State) (v : Nat) : (s.withDraws v).chip = s.chip := rfl
@[simp] theorem State.withDraws_keys (s : State) (v : Nat) : (s.withDraws v).keys = s.keys := rfl
@[simp] theorem State.withDraws_pipe (s : State) (v : Nat) : (s.withDraws v).pipe = s.pipe := rfl
@[simp] theorem State.withDraws_sync (s : State) (v : Nat) : (s.withDraws v).sync = s.sync := rfl
@[simp] theorem State.withDraws_demo (s : State) (v : Nat) : (s.withDraws v).demo = s.demo := rfl
@[simp] theorem State.withDraws_dec (s : State) (v : Nat) : (s.withDraws v).dec = s.dec := rfl
@[simp] theorem State.withDraws_loader (s : State) (v : Nat) : (s.withDraws v).loader = s.loader := rfl
@[simp] theorem State.withDraws_input (s : State) (v : Nat) : (s.withDraws v).input = s.input := rfl
@[simp] theorem State.withDraws_caller (s : State) (v : Nat) : (s.withDraws v).caller = s.caller := rfl
@[simp] theorem State.withDraws_result (s : State) (v : Nat) : (s.withDraws v).result = s.result := rfl
@[simp] theorem State.withDraws_outbox (s : State) (v : Nat) : (s.withDraws v).outbox = s.outbox := rfl
@[simp] theorem State.withDraws_draws (s : State) (v : Nat) : (s.withDraws v).draws = v := rfl

end Sys2Proof.Machine
end

