-- ==== Sys2Proof/Laws/Ops.lean ====
section
/-! SUPPORT. One lemma per shared operation that says everything it can do, so that later proofs cite it
instead of unfolding the operation. -/

namespace Sys2Proof.Machine

/-! ## The small tables -/

@[simp] theorem Tri.get_set_self {α : Type} (t : Tri α) (c : Fin 3) (v : α) : (t.set c v).get c = v := by
  fin_cases c <;> rfl

theorem Tri.get_set_other {α : Type} (t : Tri α) (c d : Fin 3) (v : α) (h : d ≠ c) :
    (t.set c v).get d = t.get d := by
  fin_cases c <;> fin_cases d <;> first | rfl | exact absurd rfl h

@[simp] theorem Quad.get_set_self {α : Type} (t : Quad α) (c : Fin 4) (v : α) : (t.set c v).get c = v := by
  fin_cases c <;> rfl

theorem Quad.get_set_other {α : Type} (t : Quad α) (c d : Fin 4) (v : α) (h : d ≠ c) :
    (t.set c v).get d = t.get d := by
  fin_cases c <;> fin_cases d <;> first | rfl | exact absurd rfl h

@[simp] theorem Quad.get_ofFn {α : Type} (f : Fin 4 → α) (c : Fin 4) : (Quad.ofFn f).get c = f c := by
  fin_cases c <;> rfl

/-! ## The outcomes of the shared call forms -/

theorem done_next (s : State) (r : Result) : done s r = .next (s.withResult r) := rfl

theorem guarded_pass {check : State → Option Refusal} {s : State} (go : State → State × Result)
    (h : check s = none) : guarded check s go = .next ((go s).1.withResult (go s).2) := by simp [guarded, h, done]

theorem guarded_refused {check : State → Option Refusal} {s : State} {r : Refusal} (go : State → State × Result)
    (h : check s = some r) : guarded check s go = .refused r := by simp [guarded, h]

/-- A guarded call that gives a next state was let pass, and gives what it does. -/
theorem guarded_next {check : State → Option Refusal} {s t : State} {go : State → State × Result}
    (h : guarded check s go = .next t) : check s = none ∧ t = (go s).1.withResult (go s).2 := by
  cases hc : check s with
  | none =>
    rw [guarded_pass go hc] at h
    exact ⟨rfl, (Host.Outcome.next.inj h).symm⟩
  | some r =>
    rw [guarded_refused go hc] at h
    cases h

/-! ## The checks of the contexts -/

theorem machineCheck_pass (s : State) : machineCheck s = none ↔ s.caller = .machine := by
  unfold machineCheck
  cases s.caller <;> simp

theorem unlockedCheck_pass (s : State) :
    unlockedCheck s = none ↔ s.caller = .machine ∧ s.sync.lockHeld = false := by
  unfold unlockedCheck
  cases s.caller <;> cases s.sync.lockHeld <;> simp

theorem hostCheck_pass (s : State) : hostCheck s = none ↔ s.caller = .host := by
  unfold hostCheck
  cases s.caller <;> simp

theorem lockedCheck_pass (s : State) : lockedCheck s = none ↔ s.caller = .host ∧ s.sync.lockHeld = true := by
  unfold lockedCheck
  cases s.caller <;> cases s.sync.lockHeld <;> simp

theorem accessCheck_pass (s : State) :
    accessCheck s = none ↔ (s.caller = .machine ↔ s.sync.lockHeld = false) := by
  unfold accessCheck
  cases s.caller <;> cases s.sync.lockHeld <;> simp

/-! ## Interrupts -/

/-- A latch either changes nothing or sets the one active bit of an enabled, inactive source. -/
theorem latch_cases (i : Fin 4) (ch : Chip) :
    (latch i ch = ch ∧ ¬(ch.intEn.get i = true ∧ ch.intActive.get i = false)) ∨
    (latch i ch = { ch with intActive := ch.intActive.set i true } ∧ ch.intEn.get i = true ∧
      ch.intActive.get i = false) := by
  unfold latch
  cases h1 : ch.intEn.get i <;> cases h2 : ch.intActive.get i <;> simp

/-- A new level either latches, on a falling edge of an enabled, inactive source, or only moves the bit. -/
theorem setIntState_cases (i : Fin 4) (b : Bool) (ch : Chip) :
    (setIntState i b ch = { ch with intState := ch.intState.set i b } ∧
      ¬(ch.intState.get i = true ∧ b = false ∧ ch.intEn.get i = true ∧ ch.intActive.get i = false)) ∨
    (setIntState i b ch =
        { ch with intState := ch.intState.set i b, intActive := ch.intActive.set i true } ∧
      ch.intState.get i = true ∧ b = false ∧ ch.intEn.get i = true ∧ ch.intActive.get i = false) := by
  by_cases hf : ch.intState.get i = true ∧ b = false
  · obtain ⟨h1, rfl⟩ := hf
    have he : setIntState i false ch = { latch i ch with intState := (latch i ch).intState.set i false } := by
      unfold setIntState
      rw [h1]
      rfl
    rw [he]
    rcases latch_cases i ch with ⟨h, hn⟩ | ⟨h, hp⟩
    · rw [h]
      exact .inl ⟨rfl, fun hc => hn hc.2.2⟩
    · rw [h]
      exact .inr ⟨rfl, h1, rfl, hp⟩
  · refine .inl ⟨?_, fun hc => hf ⟨hc.1, hc.2.1⟩⟩
    have hfall : fall (ch.intState.get i) b = false := by
      cases h1 : ch.intState.get i <;> cases b <;> simp_all [fall]
    unfold setIntState
    rw [hfall]
    rfl

/-! ## Reset and the demo stops -/

/-- The whole effect of a machine reset. -/
theorem machineReset_eq (s : State) : machineReset s = (s.withChip Chip.reset).withKeys 0 := rfl

/-- Stopping a recording if there is one: either nothing, or the log is closed and committed. -/
theorem stopIfRecording_cases (s : State) :
    (stopIfRecording s = s ∧ s.demo.mode ≠ .recording) ∨
    (s.demo.mode = .recording ∧
      stopIfRecording s = s.withDemo { s.demo with
        recBuf := s.demo.recBuf ++ [0x00#8, 0x00#8, 0x00#8]
        committed := some (s.demo.recBuf ++ [0x00#8, 0x00#8, 0x00#8])
        mode := .idle }) := by
  unfold stopIfRecording
  split
  · next h => exact .inr ⟨h, rfl⟩
  · next h => exact .inl ⟨rfl, h⟩

/-- Stopping playback if there is one: either nothing, or every key is released and the mode is idle. -/
theorem stopIfPlaying_cases (s : State) :
    (stopIfPlaying s = s ∧ s.demo.mode ≠ .playing) ∨
    (s.demo.mode = .playing ∧
      stopIfPlaying s = (s.withDemo { s.demo with mode := .idle, lastError := none }).withKeys 0) := by
  unfold stopIfPlaying
  split
  · next h => exact .inr ⟨h, rfl⟩
  · next h => exact .inl ⟨rfl, h⟩

/-! ## Frame delivery -/

/-- One round of `requestFrame` returns a frame, returns nothing, or goes on waiting. -/
theorem frameRound_cases (left : Nat) (s : State) :
    let p := drain s.par s.pipe
    (0 < p.frameReady ∧
      frameRound left s =
        (((s.withPipe { p with frameReady := 0, waitLeft := none }).send (.frame (some ⟨p.fb, p.viewport⟩))),
          some (some ⟨p.fb, p.viewport⟩))) ∨
    (p.frameReady = 0 ∧ s.sync.shutdown = true ∧
      frameRound left s = ((s.withPipe { p with waitLeft := none }).send (.frame none), some none)) ∨
    (p.frameReady = 0 ∧ s.sync.shutdown = false ∧ left ≤ Config.waitMs s.draws ∧
      frameRound left s =
        (((s.withPipe { p with waitLeft := none }).withDraws (s.draws + 1)).send (.frame none), some none)) ∨
    (p.frameReady = 0 ∧ s.sync.shutdown = false ∧ Config.waitMs s.draws < left ∧
      frameRound left s =
        ((s.withPipe { p with waitLeft := some (left - Config.waitMs s.draws) }).withDraws (s.draws + 1),
          none)) := by
  intro p
  by_cases h1 : 0 < p.frameReady
  · left
    refine ⟨h1, ?_⟩
    exact (if_pos h1).trans rfl
  · right
    have h0 : p.frameReady = 0 := by omega
    cases h2 : s.sync.shutdown
    · right
      rcases Nat.lt_or_ge (Config.waitMs s.draws) left with h3 | h3
      · right
        refine ⟨h0, rfl, h3, ?_⟩
        exact (if_neg h1).trans ((if_neg (by simp [h2])).trans ((if_neg (by simp only [State.drawMs, State.withPipe_draws]; omega)).trans rfl))
      · left
        refine ⟨h0, rfl, h3, ?_⟩
        exact (if_neg h1).trans ((if_neg (by simp [h2])).trans ((if_pos h3).trans rfl))
    · left
      refine ⟨h0, rfl, ?_⟩
      exact (if_neg h1).trans ((if_pos h2).trans rfl)

/-- Waking does nothing without a waiting call; otherwise a draw says whether the call runs a round. -/
theorem wakeFrame_cases (s : State) :
    (s.pipe.waitLeft = none ∧ wakeFrame s = s) ∨
    ∃ left, s.pipe.waitLeft = some left ∧
      (wakeFrame s = s.withDraws (s.draws + 1) ∨
        wakeFrame s = (frameRound left (s.withDraws (s.draws + 1))).1) := by
  unfold wakeFrame
  cases h : s.pipe.waitLeft with
  | none => exact .inl ⟨rfl, rfl⟩
  | some left =>
    refine .inr ⟨left, rfl, ?_⟩
    cases hd : Config.draw s.draws
    · exact .inl (if_neg (by simp [State.drawBool, hd]))
    · exact .inr (if_pos hd)

/-! ## Load, the queue and the lock -/

/-- A load either commits a staged chip and log to the state its stops and reset left, or fails. -/
theorem loadSnapshot_cases (blob : Bytes) (s : State) :
    (∃ ch log, readSnapshot (loadBegin s).par blob = .ok (ch, log) ∧
      loadSnapshot blob s =
        (((loadBegin s).withChip ch).withDemo { (loadBegin s).demo with committed := log }, .ok ())) ∨
    (∃ e, readSnapshot (loadBegin s).par blob = .error e ∧
      loadSnapshot blob s = (loadFailed (loadBegin s), .error e)) := by
  unfold loadSnapshot
  cases h : readSnapshot (loadBegin s).par blob with
  | ok r => exact .inl ⟨r.1, r.2, rfl, by simp [h]⟩
  | error e => exact .inr ⟨e, rfl, by simp [h]⟩

/-- The three outcomes of `enqueue`. -/
theorem enqueue_cases (c : Command) (s : State) :
    (s.sync.shutdown = true ∧ enqueue c s = (s, false)) ∨
    (s.sync.shutdown = false ∧ s.par.cmdqCap ≤ s.sync.cmdq.length ∧
      enqueue c s = (s.withSync { s.sync with dropped := s.sync.dropped + 1 }, false)) ∨
    (s.sync.shutdown = false ∧ s.sync.cmdq.length < s.par.cmdqCap ∧
      enqueue c s = (s.withSync { s.sync with cmdq := s.sync.cmdq ++ [c] }, true)) := by
  unfold enqueue
  cases h : s.sync.shutdown
  · right
    rcases Nat.lt_or_ge s.sync.cmdq.length s.par.cmdqCap with h2 | h2
    · right; simp [h2]
    · left; simp [h2]
  · left; simp

/-- The outcomes of `lock`. -/
theorem lockMachine_cases (ms : Nat) (s : State) :
    (s.sync.lockHeld = true ∧ lockMachine ms s = (s, false)) ∨
    (s.sync.lockHeld = false ∧ Config.draw s.draws = false ∧
      lockMachine ms s = (s.withDraws (s.draws + 1), false)) ∨
    (s.sync.lockHeld = false ∧ Config.draw s.draws = true ∧
      lockMachine ms s =
        ((s.withDraws (s.draws + 1)).withSync { s.sync with lockHeld := true }, true)) := by
  unfold lockMachine
  cases h : s.sync.lockHeld
  · right
    cases h2 : Config.draw s.draws
    · left; simp [State.drawBool, h2]
    · right; simp [State.drawBool, h2]
  · left; simp

/-- The machine context's read of the shutdown flag. -/
theorem readShutdown_cases (s : State) :
    (s.sync.shutdown = false ∧ readShutdown s = (false, s)) ∨
    (s.sync.shutdown = true ∧ s.sync.shutSeen = true ∧ readShutdown s = (true, s)) ∨
    (s.sync.shutdown = true ∧ s.sync.shutSeen = false ∧
      readShutdown s = (Config.draw s.draws, s.withDraws (s.draws + 1))) := by
  unfold readShutdown
  cases h1 : s.sync.shutdown <;> cases h2 : s.sync.shutSeen <;> simp [State.drawBool]

/-- The outcomes of `runFor`. -/
theorem runFor_cases (us : Nat) (env : List (List EnvCall)) (s : State) :
    let r := readShutdown s
    (s.sync.lockHeld = true ∧ runFor us env s = s) ∨
    (s.sync.lockHeld = false ∧ r.1 = true ∧ runFor us env s = shutdownMachine r.2) ∨
    (s.sync.lockHeld = false ∧ r.1 = false ∧
      runFor us env s =
        runBudget us env (r.2.sync.cmdq.foldl applyCommand
          (machineQueueOp (r.2.withSync { r.2.sync with cmdq := [] })))) := by
  intro r
  cases h1 : s.sync.lockHeld
  · right
    cases h2 : r.1
    · exact .inr ⟨rfl, rfl, (if_neg (by simp [h1])).trans ((if_neg (by simp [r, h2])).trans rfl)⟩
    · exact .inl ⟨rfl, rfl, (if_neg (by simp [h1])).trans (if_pos h2)⟩
  · exact .inl ⟨rfl, if_pos h1⟩

/-- `unlock` frees a held lock and lets the machine context see the shutdown flag; a free one stays. -/
theorem unlockMachine_cases (s : State) :
    (s.sync.lockHeld = false ∧ unlockMachine s = s) ∨
    (s.sync.lockHeld = true ∧ unlockMachine s =
      s.withSync { s.sync with lockHeld := false, shutSeen := s.sync.shutSeen || s.sync.shutdown }) := by
  unfold unlockMachine
  cases h : s.sync.lockHeld <;> simp

/-! ## The port and the step -/

/-- What is left of an item is all that stands behind the instruction, or nothing. -/
theorem leftover_cases (i : Instr) (rest : Bytes) (s : State) : leftover i rest s = rest ∨ leftover i rest s = [] := by
  unfold leftover
  cases i.format <;> simp only
  case scanlineTag => split <;> simp
  case demoRecord => split <;> simp
  case snapshotChunk => split <;> simp
  all_goals exact .inl trivial

/-- A new item sets up its own working state and nothing else. -/
theorem openItem_cases (it : Item) (s : State) :
    (it.first = true ∧ it.fmt = .scanlineTag ∧ openItem it s = s.withDec (LineDec.start s.par)) ∨
    (it.first = true ∧ it.fmt = .snapshotChunk ∧ openItem it s = s.withLoader Loader.start) ∨
    (¬(it.first = true ∧ (it.fmt = .scanlineTag ∨ it.fmt = .snapshotChunk)) ∧ openItem it s = s) := by
  unfold openItem
  cases it.first <;> cases it.fmt <;> simp

/-- The outcomes of an item that ends inside an instruction. -/
theorem cutShort_cases (it : Item) (s : State) :
    (it.fmt = .scanlineTag ∧ cutShort it s = .next ((s.withDec (endOfData s.par s.dec)).withResult .unit)) ∨
    (it.fmt = .demoRecord ∧
      cutShort it s = guardedUnit unlockedCheck s (stopPlayback (some (recordError it.bytes)))) ∨
    (it.fmt = .snapshotChunk ∧ cutShort it s = .next ((s.withLoader (loadCut s.loader)).withResult .unit)) ∨
    ((it.fmt = .regWrite ∨ it.fmt = .regRead ∨ it.fmt = .command ∨ it.fmt = .interface) ∧
      cutShort it s = .refused .undecodable) := by
  unfold cutShort
  cases it.fmt <;> simp [done]

/-- The outcomes of a step. -/
theorem step_cases (s : State) :
    (s.par.valid = false ∧ step s = .refused .badConfig) ∨
    (s.par.valid = true ∧ s.input = [] ∧ step s = .next s) ∨
    (∃ it later, s.par.valid = true ∧ s.input = it :: later ∧ decode s.par it.fmt it.bytes = none ∧
      step s = cutShort it (fetched it [] later s)) ∨
    (∃ it later i rest, s.par.valid = true ∧ s.input = it :: later ∧
      decode s.par it.fmt it.bytes = some (i, rest) ∧
      step s = exec i (fetched it (leftover i rest (openItem it s)) later s)) := by
  unfold step
  cases hv : s.par.valid
  · left; simp
  · right
    cases hi : s.input with
    | nil => left; simp
    | cons it later =>
      right
      cases hd : decode s.par it.fmt it.bytes with
      | none => left; exact ⟨it, later, by simp [hd]⟩
      | some r => right; exact ⟨it, later, r.1, r.2, by simp [hd]⟩

end Sys2Proof.Machine
end

