-- ==== Sys2Proof/Laws/PerInstr.lean ====
section
/-! SUPPORT. The family of statements about each instruction: every instruction takes at least one byte, so
that no item of a format is empty and no decoder loop stands still. -/

namespace Sys2Proof.Laws.EncodeNonempty

/-- The encoding of the instruction is not empty, whatever the parameters. -/
def Statement (i : Sys2Proof.Instr) : Prop := ∀ p : Sys2Proof.Params, Sys2Proof.encode p i ≠ []

theorem wrFrqLo0 (v : Byte) : Statement (.wrFrqLo0 v) := fun _ => List.cons_ne_nil _ _
theorem wrFrqLo1 (v : Byte) : Statement (.wrFrqLo1 v) := fun _ => List.cons_ne_nil _ _
theorem wrFrqLo2 (v : Byte) : Statement (.wrFrqLo2 v) := fun _ => List.cons_ne_nil _ _
theorem wrToneCtl0 (v : Byte) : Statement (.wrToneCtl0 v) := fun _ => List.cons_ne_nil _ _
theorem wrToneCtl1 (v : Byte) : Statement (.wrToneCtl1 v) := fun _ => List.cons_ne_nil _ _
theorem wrToneCtl2 (v : Byte) : Statement (.wrToneCtl2 v) := fun _ => List.cons_ne_nil _ _
theorem wrNoiseCtl (v : Byte) : Statement (.wrNoiseCtl v) := fun _ => List.cons_ne_nil _ _
theorem wrSysCtl (v : Byte) : Statement (.wrSysCtl v) := fun _ => List.cons_ne_nil _ _
theorem wrVolL (c : Fin 4) (v : Byte) : Statement (.wrVolL c v) := fun _ => List.cons_ne_nil _ _
theorem wrVolR (c : Fin 4) (v : Byte) : Statement (.wrVolR c v) := fun _ => List.cons_ne_nil _ _
theorem wrPage (k : Fin 4) (v : Byte) : Statement (.wrPage k v) := fun _ => List.cons_ne_nil _ _
theorem wrIntCtl (v : Byte) : Statement (.wrIntCtl v) := fun _ => List.cons_ne_nil _ _
theorem wrKbdRow (v : Byte) : Statement (.wrKbdRow v) := fun _ => List.cons_ne_nil _ _
theorem wrB6 (v : Byte) : Statement (.wrB6 v) := fun _ => List.cons_ne_nil _ _
theorem wrReserved (off : BitVec 5) (v : Byte) : Statement (.wrReserved off v) := fun _ => List.cons_ne_nil _ _
theorem wrUnmapped (addr v : Byte) : Statement (.wrUnmapped addr v) := fun _ => List.cons_ne_nil _ _
theorem rdWo (off : BitVec 4) : Statement (.rdWo off) := fun _ => List.cons_ne_nil _ _
theorem rdPage (k : Fin 4) : Statement (.rdPage k) := fun _ => List.cons_ne_nil _ _
theorem rdIntStat : Statement (.rdIntStat) := fun _ => List.cons_ne_nil _ _
theorem rdKbdCol : Statement (.rdKbdCol) := fun _ => List.cons_ne_nil _ _
theorem rdTape : Statement (.rdTape) := fun _ => List.cons_ne_nil _ _
theorem rdReserved (off : BitVec 5) : Statement (.rdReserved off) := fun _ => List.cons_ne_nil _ _
theorem rdUnmapped (addr : Byte) : Statement (.rdUnmapped addr) := fun _ => List.cons_ne_nil _ _
theorem blank : Statement (.blank) := fun _ => List.cons_ne_nil _ _
theorem fill1 (c0 : Byte) : Statement (.fill1 c0) := fun _ => List.cons_ne_nil _ _
theorem fill2 (c0 c1 : Byte) : Statement (.fill2 c0 c1) := fun _ => List.cons_ne_nil _ _
theorem fill4 (c0 c1 c2 c3 : Byte) : Statement (.fill4 c0 c1 c2 c3) := fun _ => List.cons_ne_nil _ _
theorem fill8 (c0 c1 c2 c3 c4 c5 c6 c7 : Byte) : Statement (.fill8 c0 c1 c2 c3 c4 c5 c6 c7) := fun _ => List.cons_ne_nil _ _
theorem bmp8 (c0 c1 bits : Byte) : Statement (.bmp8 c0 c1 bits) := fun _ => List.cons_ne_nil _ _
theorem bmp16 (c0a c1a bitsA c0b c1b bitsB : Byte) : Statement (.bmp16 c0a c1a bitsA c0b c1b bitsB) := fun _ => List.cons_ne_nil _ _
theorem unknownTag (tag : Byte) : Statement (.unknownTag tag) := fun _ => List.cons_ne_nil _ _
theorem demoEnd (delta : BitVec 63) (payload : Bytes) : Statement (.demoEnd delta payload) := fun _ => encodeEvent_ne_nil _ _ _
theorem demoKeyDown (delta : BitVec 63) (payload : Bytes) : Statement (.demoKeyDown delta payload) := fun _ => encodeEvent_ne_nil _ _ _
theorem demoKeyUp (delta : BitVec 63) (payload : Bytes) : Statement (.demoKeyUp delta payload) := fun _ => encodeEvent_ne_nil _ _ _
theorem demoUnknown (delta : BitVec 63) (ty : Byte) (payload : Bytes) : Statement (.demoUnknown delta ty payload) := fun _ => encodeEvent_ne_nil _ _ _
theorem chunkChip (payload : Bytes) (crc : Word) : Statement (.chunkChip payload crc) := fun _ => encodeChunk_ne_nil _ _ _
theorem chunkDemo (payload : Bytes) (crc : Word) : Statement (.chunkDemo payload crc) := fun _ => encodeChunk_ne_nil _ _ _
theorem chunkMach (payload : Bytes) (crc : Word) : Statement (.chunkMach payload crc) := fun _ => encodeChunk_ne_nil _ _ _
theorem chunkEnd (n : Word) (trailing : Bytes) : Statement (.chunkEnd n trailing) := fun _ => List.cons_ne_nil _ _
theorem chunkUnknown (tag : Word) (payload : Bytes) (crc : Word) : Statement (.chunkUnknown tag payload crc) := fun _ => encodeChunk_ne_nil _ _ _
theorem cmdReset : Statement (.cmdReset) := fun _ => List.cons_ne_nil _ _
theorem cmdKeyDown (k : BitVec 7) : Statement (.cmdKeyDown k) := fun _ => List.cons_ne_nil _ _
theorem cmdKeyUp (k : BitVec 7) : Statement (.cmdKeyUp k) := fun _ => List.cons_ne_nil _ _
theorem cmdSetVolume (v : Half) : Statement (.cmdSetVolume v) := fun _ => List.cons_ne_nil _ _
theorem cmdTape (op : Byte) : Statement (.cmdTape op) := fun _ => List.cons_ne_nil _ _
theorem cmdMouseDelta (dx dy : Half) : Statement (.cmdMouseDelta dx dy) := fun _ => List.cons_ne_nil _ _
theorem cmdSetPaused (b : Bool) : Statement (.cmdSetPaused b) := fun _ => List.cons_ne_nil _ _
theorem cmdDemoRecordStart : Statement (.cmdDemoRecordStart) := fun _ => List.cons_ne_nil _ _
theorem cmdDemoRecordStop : Statement (.cmdDemoRecordStop) := fun _ => List.cons_ne_nil _ _
theorem cmdDemoPlayStart (blob : Bytes) : Statement (.cmdDemoPlayStart blob) := fun _ => List.cons_ne_nil _ _
theorem cmdDemoPlayStop : Statement (.cmdDemoPlayStop) := fun _ => List.cons_ne_nil _ _
theorem advanceOneCycle : Statement (.advanceOneCycle) := fun _ => List.cons_ne_nil _ _
theorem writeRegister (addr value : Byte) : Statement (.writeRegister addr value) := fun _ => List.cons_ne_nil _ _
theorem readRegister (addr : Byte) : Statement (.readRegister addr) := fun _ => List.cons_ne_nil _ _
theorem setInt1State (s : Bool) : Statement (.setInt1State s) := fun _ => List.cons_ne_nil _ _
theorem setInt2State (s : Bool) : Statement (.setInt2State s) := fun _ => List.cons_ne_nil _ _
theorem setTapeInput (s : Bool) : Statement (.setTapeInput s) := fun _ => List.cons_ne_nil _ _
theorem setTapeFeedback (s : Bool) : Statement (.setTapeFeedback s) := fun _ => List.cons_ne_nil _ _
theorem submitScanline (i : Nat) (payload : Bytes) : Statement (.submitScanline i payload) := fun _ => List.cons_ne_nil _ _
theorem notifyFieldSync (level : Bool) (slot : Nat) : Statement (.notifyFieldSync level slot) := fun _ => List.cons_ne_nil _ _
theorem requestFrame : Statement (.requestFrame) := fun _ => List.cons_ne_nil _ _
theorem requestAutodetect : Statement (.requestAutodetect) := fun _ => List.cons_ne_nil _ _
theorem setViewport (x1 y1 x2 y2 : Nat) : Statement (.setViewport x1 y1 x2 y2) := fun _ => List.cons_ne_nil _ _
theorem enqueue (c : Command) : Statement (.enqueue c) := fun _ => List.cons_ne_nil _ _
theorem runFor (budgetUs : Nat) (env : List (List EnvCall)) : Statement (.runFor budgetUs env) := fun _ => List.cons_ne_nil _ _
theorem lock (timeoutMs : Nat) : Statement (.lock timeoutMs) := fun _ => List.cons_ne_nil _ _
theorem unlock : Statement (.unlock) := fun _ => List.cons_ne_nil _ _
theorem requestShutdown : Statement (.requestShutdown) := fun _ => List.cons_ne_nil _ _
theorem saveSnapshot : Statement (.saveSnapshot) := fun _ => List.cons_ne_nil _ _
theorem loadSnapshot (blob : Bytes) : Statement (.loadSnapshot blob) := fun _ => List.cons_ne_nil _ _
theorem demoBlob : Statement (.demoBlob) := fun _ => List.cons_ne_nil _ _

end Sys2Proof.Laws.EncodeNonempty
end

