-- ==== Sys2Proof/Tests/Slice0.lean ====
section
/-! SUPPORT. The model's own tests: what WellFormed refuses, written-out words of every constructor, one small
step of each family with the values of spec/95_test_vectors.md, and for each obligation that has hypotheses a
concrete state and operands that meet them. Vector numbers are sections of 95_test_vectors.md. -/

namespace Sys2Proof.Tests

open Sys2Proof Sys2Proof.Machine

-- one theorem at a time: elaborating all of them at once can run out of threads
set_option Elab.async false

/-! ## Small machines -/

/-- Small parameters: rows of 20 pixels, 3 field lines, 4 slots, a queue of 2 commands, blobs of 160 bytes. -/
def tp : Params :=
  { outW := 20, fieldLines := 3, slots := 4, borderLines := 2, cmdqCap := 2, snapshotSize := 160 }

/-- The construction state with the small parameters. -/
def s0 : State := State.construct tp

/-- The same with the host calling. -/
def sHost : State := s0.withCaller .host

/-- The same with the host calling and holding the machine lock. -/
def sLocked : State := sHost.withSync { Sync.construct with lockHeld := true }

/-- `s` with its demo layer in mode `m`. -/
def inMode (m : DemoMode) (s : State) : State := s.withDemo { s.demo with mode := m }

/-- The outcome is a next state with property `f`. -/
def nextWith (o : Host.Outcome State Fault Refusal) (f : State → Bool) : Bool :=
  match o with
  | .next s => f s
  | .fault _ => false
  | .refused _ => false

/-- The outcome is refusal `r`. -/
def refusedWith (o : Host.Outcome State Fault Refusal) (r : Refusal) : Bool :=
  match o with
  | .next _ => false
  | .fault _ => false
  | .refused q => q == r

/-- The context that makes a call that needs no lock (R402). -/
def callerOf (i : Instr) : Agent :=
  match i with
  | .requestFrame | .requestAutodetect | .setViewport _ _ _ _ | .enqueue _ | .lock _ | .unlock
  | .requestShutdown => .host
  | _ => .machine

/-- The instructions of a list one after another, each by its context; the outcome of the last. -/
def runAll : List Instr → State → Host.Outcome State Fault Refusal
  | [], s => .next s
  | i :: t, s =>
    match exec i (s.withCaller (callerOf i)) with
    | .next s' => runAll t s'
    | .fault f => .fault f
    | .refused r => .refused r

/-- A demo log of `P_DEMO_VERSION` 1 whose one record ends it after 3 ticks. -/
def log3 : Bytes := [0#8, 0#8, 0#8, 1#8, 3#8, 0#8, 0#8]

/-- A 160-byte snapshot of the reset chip (vector 2.15 (b)) with the chunks of `more` behind the chip chunk. -/
def blobOf (more : Bytes) : Bytes :=
  [0#8, 0#8, 0#8, 1#8, 0x43#8, 0x48#8, 0x49#8, 0x50#8, 0#8, 0#8, 0#8, 0x6F#8] ++ List.replicate 110 0#8 ++
    [0x11#8, 0xDA#8, 0xD2#8, 0x96#8, 0x81#8] ++ more ++ List.replicate (33 - more.length) 0#8

/-- The DEMO chunk of `log3`. -/
def demo3 : Bytes := encodeChunk Config.tagDemo log3 (crc32 log3)

/-! ## WellFormed refuses an ill-formed term for each check -/

theorem test_wf_wrReserved : ¬WellFormed {} (.wrReserved 0x16#5 0#8) := by decide
theorem test_wf_wrUnmapped : ¬WellFormed {} (.wrUnmapped 0xBF#8 0#8) := by decide
theorem test_wf_rdReserved : ¬WellFormed {} (.rdReserved 0x16#5) := by decide
theorem test_wf_rdUnmapped : ¬WellFormed {} (.rdUnmapped 0xA0#8) := by decide
theorem test_wf_unknownTag : ¬WellFormed {} (.unknownTag 0x06#8) := by decide
theorem test_wf_demoEnd : ¬WellFormed {} (.demoEnd 0#63 (List.replicate 256 0#8)) := by
  simp only [WellFormed, Instr.wf, List.length_replicate]
  decide
theorem test_wf_demoKeyDown : ¬WellFormed {} (.demoKeyDown 0#63 (List.replicate 256 0#8)) := by
  simp only [WellFormed, Instr.wf, List.length_replicate]
  decide
theorem test_wf_demoKeyUp : ¬WellFormed {} (.demoKeyUp 0#63 (List.replicate 256 0#8)) := by
  simp only [WellFormed, Instr.wf, List.length_replicate]
  decide
theorem test_wf_demoUnknown_type : ¬WellFormed {} (.demoUnknown 0#63 0x02#8 []) := by decide
theorem test_wf_demoUnknown_length : ¬WellFormed {} (.demoUnknown 0#63 0x03#8 (List.replicate 256 0#8)) := by
  simp only [WellFormed, Instr.wf, List.length_replicate]
  decide

/-- A chunk's length has 32 bits (R110): 2^32 bytes have no length field. -/
theorem test_wf_chunk_length (b : Byte) :
    ¬WellFormed {} (.chunkChip (List.replicate (2 ^ 32) b) 0#32) ∧
    ¬WellFormed {} (.chunkDemo (List.replicate (2 ^ 32) b) 0#32) ∧
    ¬WellFormed {} (.chunkMach (List.replicate (2 ^ 32) b) 0#32) ∧
    ¬WellFormed {} (.chunkUnknown 1#32 (List.replicate (2 ^ 32) b) 0#32) := by
  simp only [WellFormed, Instr.wf, List.length_replicate]
  decide

theorem test_wf_chunkUnknown_tags :
    ¬WellFormed {} (.chunkUnknown 0x43484950#32 [] 0#32) ∧ ¬WellFormed {} (.chunkUnknown 0x44454D4F#32 [] 0#32) ∧
    ¬WellFormed {} (.chunkUnknown 0x4D414348#32 [] 0#32) ∧ ¬WellFormed {} (.chunkUnknown 0#32 [] 0#32) := by decide

/-! ## Decoding: a word of every constructor, written out from 30_encoding.md -/

/-- R92 to R96: the tone, noise and system control addresses. -/
theorem test_decode_writes_low :
    decode {} .regWrite [0b10100000#8, 0x12#8] = some (.wrFrqLo0 0x12#8, []) ∧
    decode {} .regWrite [0b10100010#8, 0x12#8] = some (.wrFrqLo1 0x12#8, []) ∧
    decode {} .regWrite [0b10100100#8, 0x12#8] = some (.wrFrqLo2 0x12#8, []) ∧
    decode {} .regWrite [0b10100001#8, 0x34#8] = some (.wrToneCtl0 0x34#8, []) ∧
    decode {} .regWrite [0b10100011#8, 0x34#8] = some (.wrToneCtl1 0x34#8, []) ∧
    decode {} .regWrite [0b10100101#8, 0x34#8] = some (.wrToneCtl2 0x34#8, []) ∧
    decode {} .regWrite [0b10100110#8, 0x56#8] = some (.wrNoiseCtl 0x56#8, []) ∧
    decode {} .regWrite [0b10100111#8, 0x56#8] = some (.wrSysCtl 0x56#8, []) := by decide

/-- R92, R97, R98, R100: the volumes, pages, interrupts, keyboard, and the addresses that ignore a write. -/
theorem test_decode_writes_high :
    decode {} .regWrite [0b10101011#8, 0x3F#8] = some (.wrVolL 3 0x3F#8, []) ∧
    decode {} .regWrite [0b10101101#8, 0x3F#8] = some (.wrVolR 1 0x3F#8, []) ∧
    decode {} .regWrite [0b10110010#8, 0xFE#8] = some (.wrPage 2 0xFE#8, []) ∧
    decode {} .regWrite [0b10110100#8, 0x01#8] = some (.wrIntCtl 0x01#8, []) ∧
    decode {} .regWrite [0b10110101#8, 0x03#8] = some (.wrKbdRow 0x03#8, []) ∧
    decode {} .regWrite [0b10110110#8, 0x55#8] = some (.wrB6 0x55#8, []) ∧
    decode {} .regWrite [0b10110111#8, 0x0C#8] = some (.wrReserved 0x17#5 0x0C#8, []) ∧
    decode {} .regWrite [0b10111111#8, 0x0C#8] = some (.wrReserved 0x1F#5 0x0C#8, []) ∧
    decode {} .regWrite [0b11000000#8, 0x01#8] = some (.wrUnmapped 0xC0#8 0x01#8, []) ∧
    decode {} .regWrite [0b10011111#8, 0x01#8] = some (.wrUnmapped 0x9F#8 0x01#8, []) := by decide

/-- R92, R99 to R101: the reads. -/
theorem test_decode_reads :
    decode {} .regRead [0b10100000#8] = some (.rdWo 0x0#4, []) ∧
    decode {} .regRead [0b10101111#8] = some (.rdWo 0xF#4, []) ∧
    decode {} .regRead [0b10110001#8] = some (.rdPage 1, []) ∧
    decode {} .regRead [0b10110100#8] = some (.rdIntStat, []) ∧
    decode {} .regRead [0b10110101#8] = some (.rdKbdCol, []) ∧
    decode {} .regRead [0b10110110#8] = some (.rdTape, []) ∧
    decode {} .regRead [0b10110111#8] = some (.rdReserved 0x17#5, []) ∧
    decode {} .regRead [0b10111010#8] = some (.rdReserved 0x1A#5, []) ∧
    decode {} .regRead [0b00000000#8] = some (.rdUnmapped 0x00#8, []) := by decide

/-- R103, R104: the tags and their operands; a payload that is cut short holds no tag (R225). -/
theorem test_decode_tags :
    decode {} .scanlineTag [0x00#8] = some (.blank, []) ∧
    decode {} .scanlineTag [0x01#8, 0x2A#8] = some (.fill1 0x2A#8, []) ∧
    decode {} .scanlineTag [0x02#8, 0x11#8, 0x22#8] = some (.fill2 0x11#8 0x22#8, []) ∧
    decode {} .scanlineTag [0x03#8, 1#8, 2#8, 3#8, 4#8] = some (.fill4 1#8 2#8 3#8 4#8, []) ∧
    decode {} .scanlineTag [0x04#8, 0#8, 1#8, 2#8, 3#8, 4#8, 5#8, 6#8, 7#8] =
      some (.fill8 0#8 1#8 2#8 3#8 4#8 5#8 6#8 7#8, []) ∧
    decode {} .scanlineTag [0x05#8, 0x10#8, 0x20#8, 0x81#8] = some (.bmp8 0x10#8 0x20#8 0x81#8, []) ∧
    decode {} .scanlineTag [0x06#8, 0#8, 9#8, 0xF0#8, 3#8, 4#8, 0x0F#8] =
      some (.bmp16 0#8 9#8 0xF0#8 3#8 4#8 0x0F#8, []) ∧
    decode {} .scanlineTag [0x07#8, 0x01#8] = some (.unknownTag 0x07#8, [0x01#8]) ∧
    decode {} .scanlineTag [0xFF#8] = some (.unknownTag 0xFF#8, []) ∧
    decode {} .scanlineTag [0x02#8, 0x11#8] = none := by decide

/-- R105 to R108: a delta of 300 is `82 2C` (vector 2.14 (a)). -/
theorem test_decode_demo_records :
    decode {} .demoRecord [0x00#8, 0x00#8, 0x00#8] = some (.demoEnd 0#63 [], []) ∧
    decode {} .demoRecord [0x82#8, 0x2C#8, 0x01#8, 0x01#8, 0x13#8] = some (.demoKeyDown 300#63 [0x13#8], []) ∧
    decode {} .demoRecord [0x02#8, 0x02#8, 0x01#8, 0x13#8, 0xEE#8] = some (.demoKeyUp 2#63 [0x13#8], [0xEE#8]) ∧
    decode {} .demoRecord [0x00#8, 0x07#8, 0x00#8] = some (.demoUnknown 0#63 0x07#8 [], []) ∧
    decode {} .demoRecord [0x00#8, 0x01#8] = none := by decide

/-- R109 to R111: "CHIP", "DEMO", "MACH", the end chunk, and a tag of none of them. -/
theorem test_decode_chunks :
    decode {} .snapshotChunk [0x43#8, 0x48#8, 0x49#8, 0x50#8, 0#8, 0#8, 0#8, 1#8, 0xAA#8, 1#8, 2#8, 3#8, 4#8] =
      some (.chunkChip [0xAA#8] 0x01020304#32, []) ∧
    decode {} .snapshotChunk [0x44#8, 0x45#8, 0x4D#8, 0x4F#8, 0#8, 0#8, 0#8, 0#8, 1#8, 2#8, 3#8, 4#8] =
      some (.chunkDemo [] 0x01020304#32, []) ∧
    decode {} .snapshotChunk [0x4D#8, 0x41#8, 0x43#8, 0x48#8, 0#8, 0#8, 0#8, 0#8, 1#8, 2#8, 3#8, 4#8] =
      some (.chunkMach [] 0x01020304#32, []) ∧
    decode {} .snapshotChunk [0#8, 0#8, 0#8, 0#8, 0#8, 0#8, 0#8, 1#8, 9#8] = some (.chunkEnd 1#32 [9#8], []) ∧
    decode {} .snapshotChunk [0x58#8, 0x59#8, 0x5A#8, 0x21#8, 0#8, 0#8, 0#8, 0#8, 1#8, 2#8, 3#8, 4#8, 5#8] =
      some (.chunkUnknown 0x58595A21#32 [] 0x01020304#32, [5#8]) ∧
    decode {} .snapshotChunk [0x43#8, 0x48#8, 0x49#8, 0x50#8, 0xFF#8, 0xFF#8, 0xFF#8, 0#8] = none := by decide

/-- R112: the commands by their codes (their bytes are the transport of log 2). -/
theorem test_decode_commands :
    decode {} .command [0x01#8] = some (.cmdReset, []) ∧
    decode {} .command [0x02#8, 19#8] = some (.cmdKeyDown 19#7, []) ∧
    decode {} .command [0x03#8, 127#8] = some (.cmdKeyUp 127#7, []) ∧
    decode {} .command [0x02#8, 128#8] = none ∧
    decode {} .command [0x04#8, 0x80#8, 0x00#8] = some (.cmdSetVolume 0x8000#16, []) ∧
    decode {} .command [0x05#8, 0x07#8] = some (.cmdTape 0x07#8, []) ∧
    decode {} .command [0x06#8, 0xFF#8, 0xFF#8, 0x00#8, 0x02#8] = some (.cmdMouseDelta 0xFFFF#16 2#16, []) ∧
    decode {} .command [0x07#8, 1#8] = some (.cmdSetPaused true, []) ∧
    decode {} .command [0x08#8] = some (.cmdDemoRecordStart, []) ∧
    decode {} .command [0x09#8] = some (.cmdDemoRecordStop, []) ∧
    decode {} .command [0x0A#8, 0x02#8, 0xAB#8, 0xCD#8] = some (.cmdDemoPlayStart [0xAB#8, 0xCD#8], []) ∧
    decode {} .command [0x0B#8] = some (.cmdDemoPlayStop, []) := by decide

/-- R113: the calls in the order of its list (their bytes are the transport of log 2). -/
theorem test_decode_calls_machine :
    decode {} .interface [0x00#8] = some (.advanceOneCycle, []) ∧
    decode {} .interface [0x01#8, 0xA0#8, 0x12#8] = some (.writeRegister 0xA0#8 0x12#8, []) ∧
    decode {} .interface [0x02#8, 0xB4#8] = some (.readRegister 0xB4#8, []) ∧
    decode {} .interface [0x03#8, 1#8] = some (.setInt1State true, []) ∧
    decode {} .interface [0x04#8, 0#8] = some (.setInt2State false, []) ∧
    decode {} .interface [0x05#8, 1#8] = some (.setTapeInput true, []) ∧
    decode {} .interface [0x06#8, 1#8] = some (.setTapeFeedback true, []) ∧
    decode {} .interface [0x07#8, 0x82#8, 0x2C#8, 0x01#8, 0x00#8] = some (.submitScanline 300 [0x00#8], []) ∧
    decode {} .interface [0x08#8, 1#8, 30#8] = some (.notifyFieldSync true 30, []) := by decide

theorem test_decode_calls_host :
    decode {} .interface [0x09#8] = some (.requestFrame, []) ∧
    decode {} .interface [0x0A#8] = some (.requestAutodetect, []) ∧
    decode {} .interface [0x0B#8, 5#8, 6#8, 7#8, 8#8] = some (.setViewport 5 6 7 8, []) ∧
    decode {} .interface [0x0C#8, 0x02#8, 1#8] = some (.enqueue (.keyDown 1#7), []) ∧
    decode {} .interface [0x0D#8, 3#8, 1#8, 1#8, 0x01#8, 0xA0#8, 0x02#8] =
      some (.runFor 3 [[.writeRegister 0xA0#8 0x02#8]], []) ∧
    decode {} .interface [0x0E#8, 0#8] = some (.lock 0, []) ∧
    decode {} .interface [0x0F#8] = some (.unlock, []) ∧
    decode {} .interface [0x10#8] = some (.requestShutdown, []) ∧
    decode {} .interface [0x11#8] = some (.saveSnapshot, []) ∧
    decode {} .interface [0x12#8, 1#8, 0xEE#8] = some (.loadSnapshot [0xEE#8], []) ∧
    decode {} .interface [0x13#8] = some (.demoBlob, []) ∧
    decode {} .interface [0x14#8] = none := by decide

/-- The host's table words: the row of each numbering, and a step that runs one first (log 1, log 3). -/
theorem test_table_words :
    decodeTableWord 16 0x00A0 = some (.wrFrqLo0 0#8) ∧ decodeTableWord 8 0x06 = some (.bmp16 0#8 0#8 0#8 0#8 0#8 0#8) ∧
    decodeTableWord 32 0x43484950 = some (.chunkChip [] 0#32) ∧ decodeTableWord 8 0x08 = some .cmdDemoRecordStart ∧
    nextWith (step (State.reset.withFetchWord 16 0x0FA1)) (fun t => t.chip.frq.c0 == 0xF00#12) = true := by
  decide

/-! ## One small step of each family -/

/-- Vector 2.2 (e): a torn frequency code; 0xA1 alone writes the high bits. -/
theorem test_frequency_low :
    nextWith (runAll [.wrToneCtl0 0x03#8, .wrFrqLo0 0x12#8, .wrToneCtl1 0x05#8, .wrFrqLo1 0x34#8,
        .wrToneCtl2 0x0F#8, .wrFrqLo2 0xFF#8] s0)
      (fun t => t.chip.frq == ⟨0x312#12, 0x534#12, 0xFFF#12⟩) = true := by decide

/-- Vector 2.15 (e) and R132: the fields of a tone control byte. -/
theorem test_tone_control :
    nextWith (runAll [.wrToneCtl0 0x70#8, .wrToneCtl1 0x80#8, .wrToneCtl2 0x20#8] s0) (fun t =>
      t.chip.dist == ⟨3#2, 0#2, 2#2⟩ && t.chip.hp == ⟨true, false, false, false⟩ &&
        t.chip.rm == ⟨false, true, false, false⟩) = true := by decide

/-- Vector 2.4 (f): narrowing the variable counter reduces its phase. -/
theorem test_noise_control :
    nextWith (exec (.wrNoiseCtl 0x0C#8) (s0.withChip { Chip.reset with pv := 1000 }))
      (fun t => t.chip.pv == 489 && t.chip.vlsel == 3#2 && t.chip.nclk == 0#2) = true := by decide

/-- Vectors 2.8 (d), 2.8 (e) and 2.10. -/
theorem test_plain_writes :
    nextWith (runAll [.wrSysCtl 0x12#8, .wrVolL 0 0xFF#8, .wrVolR 0 0x45#8, .wrPage 2 0xFE#8, .wrKbdRow 0xF3#8,
        .wrB6 0x55#8, .wrReserved 0x1F#5 0x0C#8, .wrUnmapped 0x80#8 0x01#8] s0) (fun t =>
      t.chip == { Chip.reset with
        sndSel := 1, dac := ⟨true, false, false, false⟩, volL := ⟨63, 0, 0, 0⟩, volR := ⟨5, 0, 0, 0⟩,
        page := ⟨0, 0, 0xFE, 0⟩, kbdRow := 3 }) = true := by decide

/-- R138, vector 2.9 (b): the clear strobe and the enable of one source. -/
theorem test_interrupt_control :
    nextWith (exec (.wrIntCtl 0x03#8) (s0.withChip { Chip.reset with intActive := ⟨true, true, false, false⟩ }))
      (fun t => t.chip.intEn == ⟨true, false, false, false⟩ && t.chip.intActive == ⟨false, true, false, false⟩) =
      true := by decide

/-- Vector 2.10: what a register access returns. -/
theorem test_reads :
    nextWith (exec (.rdWo 0#4) s0) (fun t => t.result == .byte 0xFF#8) = true ∧
    nextWith (runAll [.wrPage 1 0x20#8, .rdPage 1] s0) (fun t => t.result == .byte 0x20#8) = true ∧
    nextWith (exec .rdIntStat (s0.withChip { Chip.reset with
        intState := ⟨true, false, false, true⟩, intActive := ⟨false, true, false, false⟩ }))
      (fun t => t.result == .byte 0x49#8) = true ∧
    nextWith (runAll [.cmdKeyDown 19#7, .wrKbdRow 2#8, .rdKbdCol] s0) (fun t => t.result == .byte 0xF7#8) = true ∧
    nextWith (runAll [.setTapeInput true, .rdTape] s0) (fun t => t.result == .byte 0xBF#8) = true ∧
    nextWith (runAll [.setTapeFeedback true, .rdTape] s0) (fun t => t.result == .byte 0x7F#8) = true ∧
    nextWith (exec (.rdReserved 0x1A#5) s0) (fun t => t.result == .byte 0xFF#8) = true ∧
    nextWith (exec (.rdUnmapped 0#8) s0) (fun t => t.result == .byte 0xFF#8) = true := by decide

/-- R130: the two register calls. -/
theorem test_register_calls :
    nextWith (runAll [.writeRegister 0xB3#8 0x77#8, .readRegister 0xB3#8] s0)
      (fun t => t.chip.page.c3 == 0x77#8 && t.result == .byte 0x77#8) = true := by decide

/-- Vectors 2.11 (a), (c) to (f): the rows of one tag each, on a row of 20 pixels. -/
theorem test_fill_tags :
    decodeLine tp [0x00#8] = List.replicate 20 0#8 ∧
    decodeLine tp [0x01#8, 0x2A#8] = List.replicate 16 0x2A#8 ++ List.replicate 4 0#8 ∧
    decodeLine tp [0x02#8, 0x11#8, 0x22#8] =
      List.replicate 8 0x11#8 ++ List.replicate 8 0x22#8 ++ List.replicate 4 0#8 ∧
    decodeLine tp [0x03#8, 1#8, 2#8, 3#8, 4#8] = List.replicate 4 1#8 ++ List.replicate 4 2#8 ++
      List.replicate 4 3#8 ++ List.replicate 4 4#8 ++ List.replicate 4 0#8 ∧
    decodeLine tp [0x04#8, 0#8, 1#8, 2#8, 3#8, 4#8, 5#8, 6#8, 7#8] =
      [0#8, 0#8, 1#8, 1#8, 2#8, 2#8, 3#8, 3#8, 4#8, 4#8, 5#8, 5#8, 6#8, 6#8, 7#8, 7#8, 0#8, 0#8, 0#8, 0#8] := by
  decide

/-- Vectors 2.11 (g) and (j): the bitmap tags. -/
theorem test_bitmap_tags :
    decodeLine tp [0x05#8, 0x10#8, 0x20#8, 0x81#8] = List.replicate 2 0x20#8 ++ List.replicate 12 0x10#8 ++
      List.replicate 2 0x20#8 ++ List.replicate 4 0#8 ∧
    decodeLine tp [0x06#8, 0#8, 9#8, 0xF0#8, 3#8, 4#8, 0x0F#8] = List.replicate 4 9#8 ++ List.replicate 4 0#8 ++
      List.replicate 4 3#8 ++ List.replicate 4 4#8 ++ List.replicate 4 0#8 := by decide

/-- R229 and R230: an unknown tag ends the data; a run is cut at the width. -/
theorem test_end_of_data_and_width :
    decodeLine tp [0x07#8, 0x01#8, 0x2A#8] = List.replicate 20 0#8 ∧
    decodeLine tp [0x01#8, 7#8, 0x01#8, 9#8, 0x01#8, 5#8] = List.replicate 16 7#8 ++ List.replicate 4 9#8 := by
  decide

/-- Vector 2.14 (c): a key event, a key code of 147, a payload of two bytes, an unknown type, the end. -/
theorem test_demo_events :
    nextWith (exec (.demoKeyDown 3#63 [0x13#8]) (inMode .playing s0))
      (fun t => t.keys.getLsbD 19 && t.demo.mode == .playing) = true ∧
    nextWith (runAll [.demoKeyDown 3#63 [0x13#8], .demoKeyUp 2#63 [0x13#8]] s0) (fun t => t.keys == 0) = true ∧
    nextWith (exec (.demoKeyDown 0#63 [0x93#8]) (inMode .playing s0))
      (fun t => t.demo.mode == .idle && t.demo.lastError == some .badKeyEvent) = true ∧
    nextWith (exec (.demoKeyDown 0#63 [0x13#8, 0x14#8]) s0) (fun t => t.demo.lastError == some .badKeyEvent) =
      true ∧
    nextWith (exec (.demoUnknown 0#63 0x07#8 []) s0) (fun t => t.demo.lastError == some .unknownType) = true ∧
    nextWith (exec (.demoEnd 0#63 []) (inMode .playing s0))
      (fun t => t.demo.mode == .idle && t.demo.lastError == none) = true := by decide

/-- Vector 2.14 (a). -/
theorem test_varints :
    varintEncode 127 = [0x7F#8] ∧ varintEncode 128 = [0x81#8, 0x00#8] ∧ varintEncode 300 = [0x82#8, 0x2C#8] ∧
    varintEncode 16384 = [0x81#8, 0x80#8, 0x00#8] ∧ varintDecode [0x80#8, 0x05#8] = .ok (5, []) := by decide

/-- Vector 2.15 (a). -/
theorem test_crc_values :
    crc32 [0x31#8, 0x32#8, 0x33#8, 0x34#8, 0x35#8, 0x36#8, 0x37#8, 0x38#8, 0x39#8] = 0xCBF43926#32 ∧
    crc32 [] = 0#32 ∧ crc32 [0#8] = 0xD202EF8D#32 ∧ crc32 [0x61#8, 0x62#8, 0x63#8] = 0x352441C2#32 := by decide +kernel

/-- Vector 2.15 (b): the payload of the reset chip. -/
theorem test_reset_chip_chunk : encodeChip Chip.reset = List.replicate 110 0#8 ++ [0x11#8] := by decide

/-- Vectors 2.15 (a) and (d): the chunks at a fresh loader. -/
theorem test_chunks :
    nextWith (exec (.chunkMach [1#8, 2#8] 0xB6CC4292#32) s0) (fun t => t.loader == Loader.start) = true ∧
    nextWith (exec (.chunkUnknown 0x58595A21#32 [0x61#8, 0x62#8, 0x63#8] 0x352441C3#32) s0)
      (fun t => t.loader.status == .failed .badChecksum) = true ∧
    nextWith (exec (.chunkDemo [0#8, 0#8, 0#8, 1#8, 0#8, 0#8, 0#8] 0x25D0B81B#32) s0)
      (fun t => t.loader.log == some [0#8, 0#8, 0#8, 1#8, 0#8, 0#8, 0#8]) = true ∧
    nextWith (exec (.chunkEnd 1#32 []) s0) (fun t => t.loader.status == .failed .badEnd) = true ∧
    nextWith (exec (.chunkEnd 0#32 [0#8, 1#8]) s0) (fun t => t.loader.status == .failed .trailingData) = true ∧
    nextWith (exec (.chunkChip [] 0#32) s0) (fun t => t.loader.status == .failed .chunkLength) = true := by decide +kernel

/-- Vectors 2.13 (g), (h): a repeated key records once; a volume command touches no chip field. -/
theorem test_commands :
    nextWith (runAll [.cmdKeyDown 19#7, .cmdKeyDown 19#7] (inMode .recording s0))
      (fun t => t.demo.recBuf == [0x00#8, 0x01#8, 0x01#8, 0x13#8]) = true ∧
    nextWith (runAll [.cmdKeyDown 19#7, .cmdKeyUp 19#7] s0) (fun t => t.keys == 0) = true ∧
    nextWith (exec (.cmdSetVolume 0x8000#16) s0)
      (fun t => t.chip == Chip.reset && t.outbox == [.volume 0x8000#16]) = true ∧
    nextWith (runAll [.cmdTape 7#8, .cmdMouseDelta 1#16 2#16] s0)
      (fun t => t.outbox == [.mouse 1#16 2#16, .tape 7#8]) = true ∧
    nextWith (runAll [.wrVolL 0 0x3F#8, .cmdReset] s0) (fun t => t.chip.volL.c0 == 0) = true ∧
    nextWith (runAll [.cmdSetPaused true, .runFor 1000 []] s0) (fun t => t.sync.cycleRem == 0 && t.sync.paused) =
      true := by decide

/-- R343, R346, vector 2.14 (b): a recording of one key; playback of nothing stops at once. -/
theorem test_demo_commands :
    nextWith (runAll [.cmdDemoRecordStart, .cmdKeyDown 19#7, .cmdDemoRecordStop] s0) (fun t =>
      t.demo.committed == some [0#8, 0#8, 0#8, 1#8, 0#8, 1#8, 1#8, 0x13#8, 0#8, 0#8, 0#8]) = true ∧
    nextWith (exec .cmdDemoPlayStop (inMode .playing s0)) (fun t => t.demo.mode == .idle) = true ∧
    nextWith (exec (.cmdDemoPlayStart []) s0) (fun t => t.demo.lastError == some .badSize) = true := by decide +kernel

/-- Scenario A (1.1), vectors 2.2 (c) and 2.8 (d): the first cycle after reset. -/
theorem test_first_cycle :
    nextWith (runAll [.wrFrqLo0 0xFF#8, .wrToneCtl0 0x0F#8, .wrVolL 0 0xFF#8, .wrVolR 0 0x45#8, .advanceOneCycle]
        s0) (fun t =>
      t.chip.phase.c0 == 0xFFF#12 && t.chip.osc.c0 && t.chip.raw == Quad.all true &&
        t.result == .sample 63#16 5#16) = true := by decide

/-- Vector 2.9 (e): in mode 2 the sound source follows `osc[0]`, and its fall at cycle 2 latches. -/
theorem test_sound_mode_two :
    nextWith (runAll [.wrSysCtl 0x04#8, .wrIntCtl 0x01#8, .advanceOneCycle, .advanceOneCycle] s0) (fun t =>
      t.chip.osc.c0 == false && t.chip.intState.c0 == false && t.chip.intActive.c0) = true := by decide

/-- Vector 2.9 (h) and (i): the video sources. -/
theorem test_video_sources :
    nextWith (runAll [.wrIntCtl 0x10#8, .setInt1State true, .setInt1State false] s0) (fun t => t.chip.irq) = true ∧
    nextWith (runAll [.setInt2State true, .setInt2State false] s0) (fun t => t.chip.irq == false) = true := by
  decide

/-- Vectors 2.12 (c), (e), (i): superseding, the odd window, an index out of range. -/
theorem test_producer :
    nextWith (runAll [.submitScanline 3 [1#8, 7#8], .submitScanline 3 [0#8], .submitScanline 4 [1#8, 1#8]] s0)
      (fun t => t.pipe.evq == [.line 3 [0#8]]) = true ∧
    nextWith (exec (.notifyFieldSync true 39) s0) (fun t => t.pipe.oddPending && t.pipe.vsyncCnt == 1) = true ∧
    nextWith (exec (.notifyFieldSync true 40) s0) (fun t => t.pipe.oddPending == false) = true := by decide

/-- Program 3 in small: an even field, drained by `requestFrame`, composites doubled. -/
theorem test_even_field :
    nextWith (runAll [.submitScanline 0 [1#8, 0x11#8], .notifyFieldSync true 5, .notifyFieldSync false 5,
        .submitScanline 3 [0#8], .requestFrame] s0) (fun t =>
      t.pipe.frameReady == 0 && t.pipe.decodeCount == 2 && t.pipe.interlaceCnt == 0 &&
        pixelAt tp t.pipe.fb 1 15 == 0x11#8 && pixelAt tp t.pipe.fb 1 16 == 0#8 &&
        pixelAt tp t.pipe.fb 2 0 == 0#8) = true := by decide

/-- Vector 2.12 (h) in the small raster of 20 by 6, and the autodetection flag. -/
theorem test_host_settings :
    nextWith (exec (.setViewport 0 0 2000 600) sHost)
      (fun t => t.pipe.viewport == ⟨0, 0, 19, 5⟩ && t.result == .bool true) = true ∧
    nextWith (exec (.setViewport 5 5 5 10) sHost) (fun t => t.result == .bool false) = true ∧
    nextWith (exec .requestAutodetect sHost) (fun t => t.pipe.autodetectReq) = true := by decide

/-- Vectors 2.13 (a), (d): the queue's bound, the shutdown, and a budget's remainder. -/
theorem test_queue_and_budget :
    nextWith (runAll [.enqueue (.keyDown 1#7), .enqueue (.keyDown 1#7), .enqueue (.keyDown 1#7),
        .requestShutdown, .enqueue (.keyUp 1#7)] s0)
      (fun t => t.sync.dropped == 1 && t.sync.cmdq.length == 2 && t.result == .bool false) = true ∧
    nextWith (exec (.runFor 3 []) s0) (fun t => t.sync.cycleRem == 500000 && t.sync.mcPhase == 1) = true := by
  decide

/-- R320, R321, R354: the lock and the demo blob. -/
theorem test_lock_calls :
    nextWith (exec (.lock 0) sLocked) (fun t => t.result == .bool false) = true ∧
    nextWith (exec .unlock sLocked) (fun t => t.sync.lockHeld == false) = true ∧
    nextWith (exec .demoBlob sLocked) (fun t => t.result == .blob none) = true := by decide

/-- R402, R74, R75: a register access of the host, and of the machine context under the lock; a wrong context. -/
theorem test_contexts :
    refusedWith (exec .rdTape sHost) .hostWithoutLock = true ∧
    nextWith (exec .rdTape sLocked) (fun t => t.result == .byte 0x3F#8) = true ∧
    refusedWith (exec (.writeRegister 0xA0#8 1#8) (sLocked.withCaller .machine)) .machineWhileLocked = true ∧
    refusedWith (exec (.runFor 1 []) sHost) .wrongContext = true ∧
    refusedWith (exec .saveSnapshot s0) .wrongContext = true := by decide

/-- R74, R314 (b), R321: a run under the lock does nothing, a shutdown or not; after unlock the machine sees it. -/
theorem test_shutdown_under_lock :
    nextWith (exec (.runFor 9 []) ((inMode .recording sLocked).withCaller .machine |>.withSync
        { Sync.construct with lockHeld := true, shutdown := true, shutSeen := true }))
      (fun t => t.demo.mode == .recording) = true ∧
    nextWith (exec .unlock (sLocked.withSync { Sync.construct with lockHeld := true, shutdown := true }))
      (fun t => t.sync.shutSeen && !t.sync.lockHeld) = true := by decide

/-- R92 with another `P_PORT_BASE`: the window moves with it. -/
theorem test_port_base :
    decode { portBase := 0x20#8 } .regWrite [0x28#8, 1#8] = some (.wrVolL 0 1#8, []) ∧
    decode { portBase := 0x20#8 } .regRead [0xB4#8] = some (.rdUnmapped 0xB4#8, []) ∧
    decode { portBase := 0x20#8 } .regRead [0x34#8] = some (.rdIntStat, []) := by decide

/-! ## The port: what stands behind the end of the data, and what is cut short -/

/-- `s0` with one item of the machine context on the port. -/
def withItem (f : Format) (bs : Bytes) : State := s0.withInput [⟨.machine, f, true, bs⟩]

/-- R229, R230, R234: nothing behind an unknown tag or a full row is read, valid or not. -/
theorem test_port_payload_end :
    nextWith (step (withItem .scanlineTag [0xFF#8, 0x02#8, 0x07#8])) (fun t => t.input == [] && t.dec.stopped) =
      true ∧
    nextWith (step (s0.withDec { LineDec.start tp with x := 16 } |>.withInput
        [⟨.machine, .scanlineTag, false, [0x01#8, 7#8, 0x02#8]⟩])) (fun t => t.input == []) = true := by decide

/-- R225, R340, R370: a cut-short tag, an empty payload, a cut-short record and chunk. -/
theorem test_port_cut_short :
    nextWith (step (withItem .scanlineTag [0x02#8, 0x07#8])) (fun t =>
      t.input == [] && t.dec == { LineDec.start tp with stopped := true }) = true ∧
    nextWith (step (withItem .scanlineTag [])) (fun t => t.dec.stopped && t.result == .unit) = true ∧
    nextWith (step (withItem .demoRecord [0x00#8, 0x01#8])) (fun t => t.demo.lastError == some .demoTruncated) =
      true ∧
    nextWith (step (withItem .demoRecord (List.replicate 10 0x80#8)))
      (fun t => t.demo.lastError == some .varintTooLong) = true ∧
    nextWith (step (withItem .snapshotChunk [0x43#8])) (fun t => t.loader.status == .failed .truncated) = true ∧
    refusedWith (step (withItem .command [0x02#8, 0x80#8])) .undecodable = true := by decide

/-! ## The snapshot of the reset chip -/

theorem crc_zeros_28 : (List.replicate 28 0#8).foldl crcByte 0xFFFFFFFF#32 = 2140112918#32 := by decide +kernel
theorem crc_zeros_56 : (List.replicate 28 0#8).foldl crcByte 2140112918#32 = 741825206#32 := by decide +kernel
theorem crc_zeros_84 : (List.replicate 28 0#8).foldl crcByte 741825206#32 = 2335380873#32 := by decide +kernel
theorem crc_zeros_111 :
    (List.replicate 26 0#8 ++ [0x11#8]).foldl crcByte 2335380873#32 ^^^ 0xFFFFFFFF#32 = 0xDAD29681#32 := by
  decide +kernel

/-- Vector 2.15 (b): the checksum of the reset chip. -/
theorem test_reset_chip_crc : crc32 (encodeChip Chip.reset) = 0xDAD29681#32 := by
  have h : encodeChip Chip.reset = List.replicate 28 0#8 ++ (List.replicate 28 0#8 ++ (List.replicate 28 0#8 ++
      (List.replicate 26 0#8 ++ [0x11#8]))) := by decide
  rw [crc32, h, List.foldl_append, crc_zeros_28, List.foldl_append, crc_zeros_56, List.foldl_append,
    crc_zeros_84, crc_zeros_111]

/-- The chip chunk of the reset chip, at a fresh loader (R373 to R376). -/
theorem test_load_chip :
    loadChip (encodeChip Chip.reset) 0xDAD29681#32 Loader.start = ⟨some Chip.reset, none, .running⟩ := by
  unfold loadChip Loader.checked
  rw [if_pos (show Loader.start.status = .running from rfl), if_pos test_reset_chip_crc]
  decide +kernel

/-- R382: a save of the reset state. -/
theorem test_save : saveSnapshot sLocked = some (blobOf []) := by
  unfold saveSnapshot saveBlob chunkBytes
  rw [show sLocked.chip = Chip.reset from rfl, test_reset_chip_crc]
  decide +kernel

theorem runChunks_chunk (n : Nat) (bs rest : Bytes) (i : Instr) (l : Loader) (h : l.status = .running)
    (hd : decodeChunk bs = some (i, rest)) : runChunks (n + 1) bs l = runChunks n rest (chunkStep i l) := by
  rw [runChunks, if_pos h, hd]

/-- R383 on a blob whose first chunk is the chip chunk of the reset chip. -/
theorem read_blobOf (more : Bytes) (log : Option Bytes) (h1 : (blobOf more).length = 160)
    (h2 : decodeChunk ((blobOf more).drop 4) =
      some (.chunkChip (encodeChip Chip.reset) 0xDAD29681#32, (blobOf more).drop 127))
    (h3 : runChunks 156 ((blobOf more).drop 127) ⟨some Chip.reset, none, .running⟩ =
      ⟨some Chip.reset, log, .done⟩) :
    readSnapshot tp (blobOf more) = .ok (Chip.reset, log) := by
  have h4 : takeBE32 (blobOf more) = some (1#32, (blobOf more).drop 4) := rfl
  have h5 : ((blobOf more).drop 4).length = 156 := by rw [List.length_drop, h1]
  unfold readSnapshot
  rw [if_neg (by rw [h1]; decide), h4]
  dsimp only
  rw [if_neg (by decide), h5, runChunks_chunk 156 _ _ _ _ rfl h2, chunkStep, test_load_chip, h3]

/-- R383: a snapshot without a demo chunk, and one with `log3`. -/
theorem test_read :
    readSnapshot tp (blobOf []) = .ok (Chip.reset, none) ∧
    readSnapshot tp (blobOf demo3) = .ok (Chip.reset, some log3) :=
  ⟨read_blobOf [] _ (by decide +kernel) (by decide +kernel) (by decide +kernel),
    read_blobOf demo3 _ (by decide +kernel) (by decide +kernel) (by decide +kernel)⟩

/-! ## Witnesses: for each obligation with hypotheses, inputs that meet them, clause by clause -/

/-- Both contexts that may access a register: the hypothesis of every register statement. -/
theorem witness_RegisterAccess : s0.MayAccess ∧ sLocked.MayAccess := by decide

theorem witness_IgnoredWrites :
    0x17 ≤ (0x17#5).toNat ∧ 0x17 ≤ (0x1F#5).toNat ∧ 0x20 ≤ (0x9F#8 - s0.par.portBase).toNat ∧
    0x20 ≤ (0xC0#8 - s0.par.portBase).toNat := by decide

theorem witness_SentinelReads :
    0x17 ≤ (0x17#5).toNat ∧ 0x17 ≤ (0x1F#5).toNat ∧ 0x20 ≤ (0x9F#8 - s0.par.portBase).toNat ∧
    0x20 ≤ (0xC0#8 - s0.par.portBase).toNat := by decide

/-- A fresh decoder, and one whose next run crosses the width. -/
theorem witness_TagsWriteSixteenPixels :
    s0.Decoding ∧ (s0.withDec { LineDec.start tp with x := 16 }).Decoding := by decide

theorem witness_DecoderStopsAtTheEnd :
    0x07 ≤ (0x07#8).toNat ∧ 0x07 ≤ (0xFF#8).toNat ∧ s0.Decoding ∧
    Instr.blank.format = .scanlineTag ∧ (Instr.unknownTag 7#8).format = .scanlineTag ∧
    (s0.withDec { LineDec.start tp with stopped := true }).dec.stopped = true ∧
    s0.par.outW ≤ (s0.withDec { LineDec.start tp with x := 20 }).dec.x := by decide

theorem witness_LineDecoderRunsTags :
    (∀ i ∈ [Instr.fill1 7#8, .unknownTag 0xFF#8, .blank], i.format = .scanlineTag ∧ WellFormed tp i) ∧
    decodeTag [] = none ∧ decodeTag [0x02#8, 1#8] = none := by decide

theorem witness_DemoKeyEvents : s0.MachineFree ∧ (127#8).toNat < 128 ∧ (0#8).toNat < 128 := by decide

theorem witness_DemoStopEvents :
    s0.MachineFree ∧ (∀ k : Byte, [] = [k] → 128 ≤ k.toNat) ∧
    (∀ k : Byte, [128#8] = [k] → 128 ≤ k.toNat) ∧ ∀ k : Byte, [1#8, 2#8] = [k] → 128 ≤ k.toNat := by
  refine ⟨⟨rfl, rfl⟩, fun k h => (by cases h), fun k h => ?_, fun k h => (by cases h)⟩
  cases h
  decide

theorem witness_VarintCodec :
    2 ^ 63 - 1 < 2 ^ 63 ∧ (∀ b ∈ List.replicate 9 0xFF#8, b.getLsbD 7 = true) ∧
    (List.replicate 9 0xFF#8).length = 9 ∧ (∀ b ∈ List.replicate 8 0x80#8, b.getLsbD 7 = true) ∧
    (List.replicate 8 0x80#8).length < 9 ∧ 8 + (varintEncode 127).length ≤ 9 ∧
    0 + (varintEncode (2 ^ 63 - 1)).length ≤ 9 := by decide

/-- The reset chip, and one with every counter at the end of its range; a payload in no encoding whose selector bytes
are right (dist 7 & 3 = 3 with swap 2: the variable counter), and one whose last selector byte is wrong. -/
theorem witness_ChipChunkRoundTrip :
    Chip.reset.Ranges ∧ { Chip.reset with p4 := 14, p5 := 30, p7 := 126, pv := 131070 }.Ranges ∧
    s0.loader.status = .running ∧ s0.loader.staged = none ∧
    (let b : Bytes := List.replicate 6 0xFF#8 ++ [7#8] ++ List.replicate 21 0#8 ++ [2#8] ++ List.replicate 78 0#8 ++
      [17#8, 0#8, 0#8, 7#8]
     b.length = 111 ∧ decodeChip b = .ok (chipFields b) ∧ (chipFields b).frq.c0 = 0xFFF#12 ∧
       (chipFields b).swap = true) ∧
    decodeChip (List.replicate 111 0#8) = .error .selectorMismatch := by decide +kernel

/-- A payload of 111 bytes whose last selector byte is wrong. -/
theorem witness_ChunkFaults :
    s0.loader.status = .running ∧ crc32 [] ≠ 1#32 ∧ crc32 [] = 0#32 ∧ s0.loader.staged = none ∧
    (s0.withLoader ⟨some Chip.reset, none, .running⟩).loader.staged.isSome = true ∧
    (List.replicate 110 0#8).length ≠ 111 ∧ (List.replicate 111 0#8).length = 111 ∧
    selBytes (chipFields (List.replicate 111 0#8)) ≠ (List.replicate 111 0#8).drop 107 ∧
    (s0.withLoader ⟨none, some [], .running⟩).loader.log.isSome = true := by decide +kernel

theorem witness_OtherChunks :
    s0.loader.status = .running ∧ s0.loader.log = none ∧ 1#32 ≠ 0#32 ∧ (∃ b ∈ [0#8, 1#8], b ≠ 0) ∧
    (∀ b ∈ ([] : Bytes), b = 0) ∧ ∀ b ∈ [0#8, 0#8], b = 0 := by decide

/-- The free lock, in each mode of the demo layer: the hypothesis of ResetCommand, KeyCommands,
ForwardedAndPause, DemoStopCommands and, with the parameters, RecordStart. -/
theorem witness_Commands (m : DemoMode) :
    (inMode m s0).MachineFree ∧ (inMode m s0).demo.mode = m ∧ (inMode m s0).par.valid = true := by
  cases m <;> decide

/-- A log whose first delta is 3; logs whose first delta is 0, that are too short, of version 2, or that promise
another delta byte. -/
theorem witness_PlayStart :
    s0.MachineFree ∧ readSnapshot s0.par (blobOf demo3) = .ok (Chip.reset, some log3) ∧
    (log3 = be32 s0.par.demoVersion ++ ([3#8] ++ [0#8, 0#8]) ∧ varintDecode ([3#8] ++ [0#8, 0#8]) = .ok (3, [0#8, 0#8])) ∧
    ([0#8, 0#8, 0#8, 1#8, 0x80#8, 0#8, 0#8, 0#8] = be32 s0.par.demoVersion ++ ([0x80#8, 0#8] ++ [0#8, 0#8]) ∧
      varintDecode ([0x80#8, 0#8] ++ [0#8, 0#8]) = .ok (0, [0#8, 0#8])) ∧
    [0#8].take 4 ≠ be32 s0.par.demoVersion ∧ [0#8, 0#8, 0#8, 2#8, 0#8].take 4 ≠ be32 s0.par.demoVersion ∧
    varintDecode [0x80#8] = .error .demoTruncated :=
  ⟨⟨rfl, rfl⟩, test_read.2, by decide, by decide, by decide, by decide, by decide⟩

theorem witness_PlayStartFailure :
    s0.MachineFree ∧ readSnapshot s0.par [] = .error .badSize ∧
    readSnapshot s0.par (blobOf []) = .ok (Chip.reset, none) := ⟨⟨rfl, rfl⟩, by decide, test_read.1⟩

/-- ToneCycle and CounterAndNoiseCycle: channels 0 and 2 underflow and channel 1 counts; the oscillator at 0
and not; a first cycle in which the noise clock rises and one in which it does not. -/
theorem witness_ChipCycle :
    s0.MachineFree ∧ s0.chip.phase.get 0 = 0 ∧
    ((s0.withChip { Chip.reset with phase := ⟨0, 1, 0⟩, fixPhase := 1 }).chip.phase.get 1 ≠ 0) ∧
    s0.chip.fixPhase = 0 ∧ (s0.withChip { Chip.reset with fixPhase := 1 }).chip.fixPhase ≠ 0 ∧
    nextWith (exec .advanceOneCycle s0) (fun t => s0.chip.clkPrev == false && t.chip.clkPrev) = true ∧
    nextWith (exec .advanceOneCycle (s0.withChip { Chip.reset with clkPrev := true }))
      (fun t => t.chip.clkPrev) = true := by decide

/-- A cycle in which the highpass partner of channel 3 falls, with lowpass on: ModulationCycle's cases. -/
theorem witness_ModulationCycle :
    nextWith (exec .advanceOneCycle (s0.withChip { Chip.reset with
        lp3 := true, hp := Quad.all true, rawPrev := Quad.all true, osc := Tri.all true }))
      (fun t => t.chip.raw.c0 == false && t.chip.raw.c2 == false && t.chip.rawPrev == t.chip.raw) = true := by
  decide

/-- MixCycle: the free lock, and the largest sample. -/
theorem witness_MixCycle :
    s0.MachineFree ∧
    nextWith (exec .advanceOneCycle (s0.withChip { Chip.reset with volL := Quad.all 63, dac := Quad.all true }))
      (fun t => t.result == .sample 1008#16 0#16) = true := by decide

theorem witness_TimerCycle :
    s0.MachineFree ∧ s0.chip.oneHzPhase = 0 ∧ s0.chip.sndSel = 0 ∧ s0.chip.sndPhase = 0 ∧
    (s0.withChip { Chip.reset with oneHzPhase := 1, sndPhase := 1, sndSel := 1 }).chip.oneHzPhase ≠ 0 ∧
    (s0.withChip { Chip.reset with oneHzPhase := 1, sndPhase := 1, sndSel := 1 }).chip.sndPhase ≠ 0 ∧
    (s0.withChip { Chip.reset with sndSel := 2 }).chip.sndSel = 2 ∧
    (s0.withChip { Chip.reset with sndSel := 3 }).chip.sndSel = 3 := by decide

theorem witness_ExternalSetters : s0.MachineFree := ⟨rfl, rfl⟩

/-- INT1 high and enabled falls. -/
theorem witness_EdgeTriggeredLatch :
    let s := s0.withChip { Chip.reset with
      intEn := ⟨false, false, true, false⟩, intState := ⟨false, false, true, false⟩ }
    ∃ t, exec (.setInt1State false) s = .next t ∧ s.chip.intActive.get 2 = false ∧
      t.chip.intActive.get 2 = true := ⟨_, rfl, by decide, by decide⟩

theorem witness_InterruptLineFalls :
    let s := s0.withChip { Chip.reset with intActive := ⟨true, false, false, false⟩ }
    ∃ t, exec (.wrIntCtl 0x02#8) s = .next t ∧ s.chip.irq = true ∧ t.chip.irq = false :=
  ⟨_, rfl, by decide, by decide⟩

/-- A line out of range; a line that does not complete the field, with the count at 0 and below the minimum
or in the pulse; one that does, at the minimum after the pulse and at the maximum in it. -/
theorem witness_SubmitScanline :
    s0.MachineFree ∧ s0.pipe.waitLeft = none ∧ s0.par.slots ≤ 4 ∧ 3 < s0.par.slots ∧
    (s0.withPipe { Pipe.construct tp with evq := [.line 3 [], .frameDone false, .line 3 [1#8]] }).pipe.evq =
      [.line 3 [], .frameDone false] ++ [.line 3 [1#8]] ∧
    [Event.line 3 [1#8]].any Event.isDone = false ∧
    [Event.line 3 [], .frameDone false] = [.line 3 []] ++ [.frameDone false] ∧
    s0.pipe.vsyncCnt = 0 ∧ ¬(0 < 0 ∧ (s0.par.vsyncMin ≤ 0 ∧ s0.pipe.vsyncState = false ∨ s0.par.vsyncMax ≤ 0)) ∧
    (0 < 1 + 1 ∧ (s0.par.vsyncMin ≤ 1 + 1 ∧ s0.pipe.vsyncState = false ∨ s0.par.vsyncMax ≤ 1 + 1)) ∧
    ¬(s0.par.vsyncMax ≤ 6 + 1) ∧ s0.par.vsyncMax ≤ 7 + 1 ∧ s0.par.evqFields = none ∧
    ({ tp with evqFields := some 1 } : Params).evqFields = some 1 ∧
    (s0.withPipe { Pipe.construct tp with waitLeft := some 20 }).pipe.waitLeft ≠ none := by decide

theorem witness_FieldSync : s0.MachineFree := ⟨rfl, rfl⟩

theorem witness_RequestFrame :
    tp.palette = none ∧ (∃ table, ({ tp with palette := some table } : Params).palette = some table) ∧
    sHost.caller = .host ∧ (sHost.withPipe { Pipe.construct tp with waitLeft := some 20 }).pipe.waitLeft ≠ none ∧ sHost.pipe.waitLeft = none ∧ (drain s0.par s0.pipe).frameReady = 0 ∧ s0.pipe.evq = [] ∧
    s0.sync.shutdown = false ∧ (s0.withSync { Sync.construct with shutdown := true }).sync.shutdown = true ∧
    0 < (drain s0.par { s0.pipe with evq := [.line 0 [1#8, 7#8], .frameDone true] }).frameReady :=
  ⟨rfl, ⟨Vector.replicate 256 7, rfl⟩, by decide⟩

/-- A field with line 0 received again and line 1 for the first time. -/
theorem witness_FieldRows :
    let pi := { Pipe.construct tp with
      slots := [(0, [1#8, 7#8]), (1, [])]
      lastPayload := [(0, [1#8, 7#8])]
      decoded := (List.range 16).map fun a => (a, 7#8) }
    pi.MapsWf ∧ pi.CacheOk tp := by
  refine ⟨by decide, fun i payload h => ?_⟩
  rw [LineMap.find] at h
  split at h
  · next hi =>
    subst hi
    cases h
    show ∀ x, x < 20 → _
    decide
  · cases h

/-- The three modes of compositing, at the first and the last field line and pixel. -/
theorem witness_FieldComposite :
    0 < tp.fieldLines ∧ 2 < tp.fieldLines ∧ 19 < tp.outW ∧ tp.halfFrame = false ∧
    ({ tp with halfFrame := true } : Params).halfFrame = true ∧
    0 < (frameDone tp true (Pipe.construct tp)).interlaceCnt ∧
    (frameDone tp false { Pipe.construct tp with interlaceCnt := 1 }).interlaceCnt = 0 ∧
    (Pipe.construct tp).autodetectReq = false ∧
    (frameDone tp false { Pipe.construct tp with autodetectReq := true }).border = some 0#8 := by decide

/-- One pixel off the border colour: the box is that pixel (vector 2.12 (g) in small); no pixel: no box. -/
theorem witness_AutodetectBox :
    (autodetect tp { Pipe.construct tp with fb := [(65, 7#8)] }).bbox = some ⟨3, 5, 3, 5⟩ ∧
    (autodetect tp { Pipe.construct tp with fb := [(65, 7#8)] }).border = some 0#8 ∧
    (autodetect tp (Pipe.construct tp)).bbox = none := by decide

/-- The full raster is accepted; an empty one, and one that is empty once clamped, are not. -/
theorem witness_HostSettings :
    sHost.caller = .host ∧ min 0 (s0.par.outW - 1) < min 2000 (s0.par.outW - 1) ∧
    min 0 (s0.par.fbH - 1) < min 600 (s0.par.fbH - 1) ∧
    ¬(min 5 (s0.par.outW - 1) < min 5 (s0.par.outW - 1)) ∧
    ¬(min 19 (s0.par.outW - 1) < min 20 (s0.par.outW - 1)) := by decide

/-- Room for one command, none, and a shutdown. -/
theorem witness_EnqueueCommand :
    sHost.caller = .host ∧ (s0.withSync { Sync.construct with cmdq := [.reset] }).sync.cmdq.length < s0.par.cmdqCap ∧
    s0.par.cmdqCap ≤ (s0.withSync { Sync.construct with cmdq := [.reset, .reset] }).sync.cmdq.length ∧
    s0.sync.shutdown = false ∧
    (s0.withSync { Sync.construct with shutdown := true }).sync.shutdown = true := by decide

theorem witness_RunForWithoutCycles :
    (sLocked.withCaller .machine).caller = .machine ∧ (sLocked.withCaller .machine).sync.lockHeld = true ∧
    s0.caller = .machine ∧ s0.sync.lockHeld = false ∧ s0.sync.shutdown = false ∧
    (s0.withSync { Sync.construct with paused := true }).sync.paused = true ∧ s0.sync.cmdq = [] ∧
    (s0.withSync { Sync.construct with shutdown := true, shutSeen := true }).sync.shutSeen = true := by decide

/-- A queue that pauses the machine and one that does not. -/
theorem witness_RunForAppliesCommands :
    s0.sync.shutdown = false ∧ s0.MachineFree ∧
    ([Command.keyDown 5#7, .setPaused true].foldl applyCommand s0).sync.paused = true ∧
    ([Command.keyDown 5#7, .setPaused false].foldl applyCommand s0).sync.paused = false ∧
    (s0.withSync { Sync.construct with shutdown := true }).MachineFree ∧
    (s0.withSync { Sync.construct with shutdown := true }).sync.shutSeen = false := by decide

/-- Both phases, the three modes, a countdown of 2, and one of 1 with each kind of due record: a key event before a
delta of 300, of 0, and of none; END, a key event of two bytes, an unknown type, a cut-short record. -/
theorem witness_MachineCycleAndTick :
    s0.MachineFree ∧ s0.sync.mcPhase = 0 ∧ (s0.withSync { Sync.construct with mcPhase := 1 }).sync.mcPhase = 1 ∧
    s0.demo.mode = .idle ∧ (inMode .recording s0).demo.mode = .recording ∧
    (let d := { Demo.construct with mode := .playing, countdown := 2 }; d.mode = .playing ∧ 1 < d.countdown) ∧
    (let d := { Demo.construct with
      mode := .playing, countdown := 1, playPos := 4
      playBuf := [0#8, 0#8, 0#8, 1#8, 1#8, 1#8, 127#8, 0x82#8, 0x2C#8, 0#8, 0#8] }
    d.mode = .playing ∧ d.countdown ≤ 1 ∧ (127#8).toNat < 128 ∧
      d.playBuf.drop d.playPos = [0x01#8, 0x01#8, 127#8] ++ ([0x82#8, 0x2C#8] ++ [0#8, 0#8]) ∧
      varintDecode ([0x82#8, 0x2C#8] ++ [0#8, 0#8]) = .ok (300, [0#8, 0#8])) ∧
    varintDecode ([0x80#8, 0#8] ++ [0#8]) = .ok (0, [0#8]) ∧
    varintDecode [] = .error .demoTruncated ∧
    [0#8, 1#8, 9#8, 7#8] = 0x00#8 :: BitVec.ofNat 8 [9#8].length :: [9#8] ++ [7#8] ∧
    (∀ k : Byte, [1#8, 2#8] = [k] → 128 ≤ k.toNat) ∧ 0x03 ≤ (0x03#8).toNat ∧ [0x01#8].length < 2 ∧
    ([2#8] : Bytes).length < (2#8).toNat :=
  ⟨by decide, by decide, by decide, by decide, by decide, by decide, by decide, by decide, by decide, by decide,
    fun _ h => (by cases h), by decide, by decide, by decide⟩

theorem witness_BudgetSplit :
    s0.sync.shutdown = false ∧ s0.MachineFree ∧ s0.sync.paused = false ∧ s0.sync.cmdq = [] := by decide

theorem witness_LockAndShutdown :
    sLocked.caller = .host ∧ sLocked.sync.lockHeld = true ∧ sHost.caller = .host ∧ sHost.sync.lockHeld = false ∧
    sHost.pipe.waitLeft = none := by decide

theorem witness_SnapshotHostCalls :
    let s := sLocked.withDemo { Demo.construct with startSnapshot := some (blobOf []), committed := some log3 }
    s.HostHolding ∧ sLocked.demo.startSnapshot = none ∧ saveBlob s.par Chip.reset none = some (blobOf []) ∧
      s.demo.startSnapshot = some (blobOf []) ∧ s.demo.committed = some log3 :=
  ⟨⟨rfl, rfl⟩, rfl, test_save, rfl, rfl⟩

/-- The blobs of `test_read` are good. -/
theorem witness_LoadSuccess :
    sLocked.HostHolding ∧ readSnapshot sLocked.par (blobOf []) = .ok (Chip.reset, none) ∧
    readSnapshot sLocked.par (blobOf demo3) = .ok (Chip.reset, some log3) := ⟨⟨rfl, rfl⟩, test_read⟩

/-- Blobs of 160 bytes: of version 2; a chip chunk, then a tail of 7 bytes, a chunk of more bytes than there are, an
end chunk of length 1, one with a byte behind it; no chip chunk. -/
theorem witness_LoadFailure :
    sLocked.HostHolding ∧ readSnapshot sLocked.par [] = .error .badSize ∧
    readSnapshot tp (List.replicate 160 0#8) = .error .versionMismatch ∧
    (be32 1#32 ++ (encode tp (.chunkUnknown 7#32 (List.replicate 137 0#8) (crc32 (List.replicate 137 0#8))) ++
      List.replicate 7 0#8)).length = 160 ∧
    WellFormed tp (.chunkUnknown 7#32 (List.replicate 137 0#8) 0#32) ∧
    readSnapshot tp (be32 1#32 ++ (be32 7#32 ++ be32 145#32 ++ List.replicate 148 0#8)) = .error .truncated ∧
    readSnapshot tp (be32 1#32 ++ (be32 0#32 ++ be32 1#32 ++ List.replicate 148 0#8)) = .error .badEnd ∧
    readSnapshot tp (be32 1#32 ++ (be32 0#32 ++ be32 0#32 ++ List.replicate 148 1#8)) = .error .trailingData ∧
    readSnapshot tp (be32 1#32 ++ (be32 0#32 ++ be32 0#32 ++ List.replicate 148 0#8)) = .error .missingChip := by
  decide +kernel

/-- The saved state and another one with the same parameters. -/
theorem witness_SnapshotRoundTrip :
    sLocked.chip.Ranges ∧ (∀ log, sLocked.demo.committed = some log → log.length < 2 ^ 32) ∧
    sLocked.HostHolding ∧ saveSnapshot sLocked = some (blobOf []) ∧
    (sLocked.withKeys 1#128).par = sLocked.par ∧ (sLocked.withKeys 1#128).HostHolding :=
  ⟨by decide, fun _ h => (by cases h), ⟨rfl, rfl⟩, test_save, rfl, rfl, rfl⟩

theorem witness_ContextChecks :
    sLocked.sync.lockHeld = true ∧ (sLocked.withCaller .machine).caller = .machine ∧ sHost.caller = .host ∧
    sHost.sync.lockHeld = false ∧ s0.caller = .machine ∧ RegisterAccess .rdTape ∧ MachineCall .cmdReset ∧
    MachineCall (.demoEnd 0#63 []) ∧ HostCall .unlock ∧ LockedCall .saveSnapshot :=
  ⟨rfl, rfl, rfl, rfl, rfl, .inr (.inl rfl), .inr (.inl rfl), .inl rfl,
    .inr (.inr (.inr (.inr (.inr (.inl rfl))))), .inl rfl⟩

/-- Nothing on the port; a payload of two tags on it; items that are cut short. -/
theorem witness_StepRunsDecoded :
    s0.par.valid = true ∧ s0.input = [] ∧
    (withItem .scanlineTag [1#8, 7#8, 0#8]).input = [⟨.machine, .scanlineTag, true, [1#8, 7#8, 0#8]⟩] ∧
    decode tp .scanlineTag [1#8, 7#8, 0#8] = some (.fill1 7#8, [0#8]) ∧
    decode tp .scanlineTag [1#8] = none ∧ decode tp .demoRecord [0#8, 0#8] = none ∧ s0.MachineFree ∧
    decode tp .snapshotChunk [0#8] = none ∧ decode tp .regWrite [0xA0#8] = none := by decide

theorem witness_DecodeEncode :
    WellFormed {} (.demoUnknown 300#63 0xFF#8 [1#8]) ∧ WellFormed {} (.chunkEnd 0#32 []) ∧
    WellFormed {} (.wrReserved 0x17#5 0#8) ∧ ∀ n trailing, Instr.unlock ≠ .chunkEnd n trailing :=
  ⟨by decide, by decide, by decide, fun _ _ h => (by cases h)⟩

/-- A state that meets every invariant, and a step of it. -/
theorem witness_Invariants :
    let s := s0.withInput [⟨.machine, .regWrite, true, [0xA6#8, 0x0C#8]⟩]
    s.pipe.PlanesWf ∧ s.chip.Ranges ∧ s.Bounds ∧ QueueOk s.par s.pipe.evq ∧ s.pipe.CacheOk s.par ∧
      ∃ t, step s = .next t ∧ t.chip.vlsel = 3#2 := by
  refine ⟨by decide, by decide, ⟨by decide, by decide, by decide, fun _ h => (by cases h), by decide⟩,
    ⟨fun _ _ h => (by cases h), fun _ => Nat.zero_le _⟩, fun _ _ h => (by cases h), _, rfl, by decide⟩

/-- Parameters at the bounds of R10, and one constraint broken. -/
theorem witness_Parameters :
    ({ fieldLines := 0, borderLines := 0, vsyncMin := 1, vsyncMax := 2, snapshotSize := 135 } : Params).valid = true ∧
    ({ snapshotSize := 134 } : Params).valid = false := by decide

theorem witness_ParametersFixedNoFault :
    ∃ t, step (s0.withInput [⟨.machine, .interface, true, [0x00#8]⟩]) = .next t ∧ t.par = s0.par := ⟨_, rfl, rfl⟩

end Sys2Proof.Tests
end

/-! # The chip's registers (40_chip_registers.md)

Each row of the register table is a constructor of `WriteRow` or `ReadRow`: an address, the instruction it stands
for and what that instruction does. Every address has a row, and a row determines what the decoder (R92), the
dispatch of `writeRegister` and `readRegister` (R130) and `exec` do with it, so that the two dispatches of the
model agree. -/

namespace Sys2Proof.Machine

/-! ## Offsets and addresses (R92) -/

@[simp] theorem regOffset_regAddr (p : Params) (off : Byte) : regOffset p (regAddr p off) = off := by
  simp [regOffset, regAddr]

@[simp] theorem regAddr_regOffset (p : Params) (addr : Byte) : regAddr p (regOffset p addr) = addr := by
  simp [regOffset, regAddr]

/-! The masks by which the decoder recognises a block of 4, 8 or 16 offsets (R92) round an offset down. -/

theorem toNat_and_FC (x : Byte) : (x &&& 0xFC#8).toNat = x.toNat / 4 * 4 := by
  revert x
  decide

theorem toNat_and_F8 (x : Byte) : (x &&& 0xF8#8).toNat = x.toNat / 8 * 8 := by
  revert x
  decide

theorem toNat_and_F0 (x : Byte) : (x &&& 0xF0#8).toNat = x.toNat / 16 * 16 := by
  revert x
  decide

theorem extractLsb'_zero_eq_setWidth {n : Nat} (m : Nat) (x : BitVec n) : x.extractLsb' 0 m = x.setWidth m := by
  rw [← BitVec.setWidth_ushiftRight_eq_extractLsb, BitVec.ushiftRight_zero]

/-! ## The rows of the table -/

/-- The rows of the write table with parameters `p`: writing `v` at the address is the instruction, which
changes the chip by the function. -/
inductive WriteRow (p : Params) (v : Byte) : Byte → Instr → (Chip → Chip) → Prop
  | frqLo0 : WriteRow p v (regAddr p 0x00#8) (.wrFrqLo0 v) (wrFrqLo 0 v)
  | frqLo1 : WriteRow p v (regAddr p 0x02#8) (.wrFrqLo1 v) (wrFrqLo 1 v)
  | frqLo2 : WriteRow p v (regAddr p 0x04#8) (.wrFrqLo2 v) (wrFrqLo 2 v)
  | toneCtl0 : WriteRow p v (regAddr p 0x01#8) (.wrToneCtl0 v) (wrToneCtl 0 v)
  | toneCtl1 : WriteRow p v (regAddr p 0x03#8) (.wrToneCtl1 v) (wrToneCtl 1 v)
  | toneCtl2 : WriteRow p v (regAddr p 0x05#8) (.wrToneCtl2 v) (wrToneCtl 2 v)
  | noiseCtl : WriteRow p v (regAddr p 0x06#8) (.wrNoiseCtl v) (wrNoiseCtl v)
  | sysCtl : WriteRow p v (regAddr p 0x07#8) (.wrSysCtl v) (wrSysCtl v)
  | volL (c : Fin 4) : WriteRow p v (addrWith p 0x08#8 c) (.wrVolL c v) (wrVolL c v)
  | volR (c : Fin 4) : WriteRow p v (addrWith p 0x0C#8 c) (.wrVolR c v) (wrVolR c v)
  | page (k : Fin 4) : WriteRow p v (addrWith p 0x10#8 k) (.wrPage k v) (wrPage k v)
  | intCtl : WriteRow p v (regAddr p 0x14#8) (.wrIntCtl v) (wrIntCtl v)
  | kbdRow : WriteRow p v (regAddr p 0x15#8) (.wrKbdRow v) (wrKbdRow v)
  | b6 : WriteRow p v (regAddr p 0x16#8) (.wrB6 v) (wrIgnored v)
  | reserved (off : BitVec 5) (h : 0x17 ≤ off.toNat) :
      WriteRow p v (regAddr p (off.setWidth 8)) (.wrReserved off v) (wrIgnored v)
  | unmapped (addr : Byte) (h : 0x20 ≤ (regOffset p addr).toNat) :
      WriteRow p v addr (.wrUnmapped addr v) (wrIgnored v)

/-- The rows of the read table in state `s`: reading the address is the instruction, which returns the byte. -/
inductive ReadRow (s : State) : Byte → Instr → Byte → Prop
  | writeOnly (off : BitVec 4) : ReadRow s (regAddr s.par (off.setWidth 8)) (.rdWo off) s.par.sentinel
  | page (k : Fin 4) : ReadRow s (addrWith s.par 0x10#8 k) (.rdPage k) (s.chip.page.get k)
  | intStat : ReadRow s (regAddr s.par 0x14#8) .rdIntStat (intStatus s.chip)
  | kbdCol : ReadRow s (regAddr s.par 0x15#8) .rdKbdCol (keyColumns s.chip s.keys)
  | tape : ReadRow s (regAddr s.par 0x16#8) .rdTape (tapeByte s.chip)
  | reserved (off : BitVec 5) (h : 0x17 ≤ off.toNat) :
      ReadRow s (regAddr s.par (off.setWidth 8)) (.rdReserved off) s.par.sentinel
  | unmapped (addr : Byte) (h : 0x20 ≤ (regOffset s.par addr).toNat) :
      ReadRow s addr (.rdUnmapped addr) s.par.sentinel

/-- An address lies outside the 32 registers, is reserved, or is that of one of the first 23 registers. -/
theorem regAddr_cases (p : Params) (addr : Byte) :
    0x20 ≤ (regOffset p addr).toNat ∨
    (∃ off : BitVec 5, 0x17 ≤ off.toNat ∧ addr = regAddr p (off.setWidth 8)) ∨
    ∃ k, k < 0x17 ∧ addr = regAddr p (BitVec.ofNat 8 k) := by
  rcases Nat.lt_or_ge (regOffset p addr).toNat 0x17 with hlow | hlow
  · exact .inr (.inr ⟨_, hlow, by simp⟩)
  rcases Nat.lt_or_ge (regOffset p addr).toNat 0x20 with hmid | hhigh
  · refine .inr (.inl ⟨(regOffset p addr).setWidth 5, ?_, ?_⟩)
    · rw [BitVec.toNat_setWidth]
      omega
    · have hoff : ((regOffset p addr).setWidth 5).setWidth 8 = regOffset p addr := by
        apply BitVec.eq_of_toNat_eq
        simp only [BitVec.toNat_setWidth]
        omega
      rw [hoff, regAddr_regOffset]
  · exact .inl hhigh

/-- Every address has a row of the write table. -/
theorem exists_writeRow (p : Params) (addr v : Byte) : ∃ i f, WriteRow p v addr i f := by
  rcases regAddr_cases p addr with h | ⟨off, h, rfl⟩ | ⟨k, hk, rfl⟩
  · exact ⟨_, _, .unmapped addr h⟩
  · exact ⟨_, _, .reserved off h⟩
  · interval_cases k
    exacts [⟨_, _, .frqLo0⟩, ⟨_, _, .toneCtl0⟩, ⟨_, _, .frqLo1⟩, ⟨_, _, .toneCtl1⟩, ⟨_, _, .frqLo2⟩,
      ⟨_, _, .toneCtl2⟩, ⟨_, _, .noiseCtl⟩, ⟨_, _, .sysCtl⟩,
      ⟨_, _, .volL 0⟩, ⟨_, _, .volL 1⟩, ⟨_, _, .volL 2⟩, ⟨_, _, .volL 3⟩,
      ⟨_, _, .volR 0⟩, ⟨_, _, .volR 1⟩, ⟨_, _, .volR 2⟩, ⟨_, _, .volR 3⟩,
      ⟨_, _, .page 0⟩, ⟨_, _, .page 1⟩, ⟨_, _, .page 2⟩, ⟨_, _, .page 3⟩,
      ⟨_, _, .intCtl⟩, ⟨_, _, .kbdRow⟩, ⟨_, _, .b6⟩]

/-- Every address has a row of the read table. -/
theorem exists_readRow (s : State) (addr : Byte) : ∃ i r, ReadRow s addr i r := by
  rcases regAddr_cases s.par addr with h | ⟨off, h, rfl⟩ | ⟨k, hk, rfl⟩
  · exact ⟨_, _, .unmapped addr h⟩
  · exact ⟨_, _, .reserved off h⟩
  · rcases Nat.lt_or_ge k 0x10 with hwo | hrest
    · have hoff : (BitVec.ofNat 4 k).setWidth 8 = BitVec.ofNat 8 k := by
        apply BitVec.eq_of_toNat_eq
        simp only [BitVec.toNat_setWidth, BitVec.toNat_ofNat]
        omega
      exact ⟨_, _, hoff ▸ ReadRow.writeOnly (BitVec.ofNat 4 k)⟩
    · interval_cases k
      exacts [⟨_, _, .page 0⟩, ⟨_, _, .page 1⟩, ⟨_, _, .page 2⟩, ⟨_, _, .page 3⟩,
        ⟨_, _, .intStat⟩, ⟨_, _, .kbdCol⟩, ⟨_, _, .tape⟩]

/-! ## What a row determines -/

/-- The decoder reads a row's instruction at its address. -/
theorem WriteRow.decode_eq {p : Params} {v addr : Byte} {i : Instr} {f : Chip → Chip} (h : WriteRow p v addr i f) :
    decodeRegWrite p addr v = i := by
  cases h with
  | volL c | volR c | page c =>
    simp only [decodeRegWrite, addrWith, regOffset_regAddr]
    fin_cases c <;> rfl
  | reserved off h =>
    simp only [decodeRegWrite, regOffset_regAddr, ← BitVec.toNat_inj, toNat_and_FC, toNat_and_F8,
      BitVec.toNat_setWidth, BitVec.extractLsb'_setWidth_of_le (show 0 + 5 ≤ 8 by decide),
      BitVec.extractLsb'_eq_self, BitVec.toNat_ofNat]
    repeat rw [if_neg (by omega)]
    split
    · rfl
    · exact if_pos (by omega)
  | unmapped addr h =>
    simp only [decodeRegWrite, ← BitVec.toNat_inj, toNat_and_FC, toNat_and_F8, BitVec.toNat_ofNat]
    repeat rw [if_neg (by omega)]
  | _ =>
    simp only [decodeRegWrite, regOffset_regAddr]
    rfl

/-- `writeRegister` at a row's address changes the chip as the row says. -/
theorem WriteRow.writeReg_eq {p : Params} {v addr : Byte} {i : Instr} {f : Chip → Chip} (h : WriteRow p v addr i f) :
    writeReg p addr v = f := by
  funext ch
  cases h with
  | volL c | volR c | page c =>
    simp only [writeReg, addrWith, regOffset_regAddr]
    fin_cases c <;> rfl
  | reserved off h =>
    simp only [writeReg, regOffset_regAddr, BitVec.toNat_setWidth]
    repeat rw [if_neg (by omega)]
  | unmapped addr h => exact if_pos h
  | _ =>
    simp only [writeReg, regOffset_regAddr]
    rfl

/-- The instruction of a row is the register write of its effect. -/
theorem WriteRow.exec_eq {p : Params} {v addr : Byte} {i : Instr} {f : Chip → Chip} (h : WriteRow p v addr i f)
    (s : State) : exec i s = regWrite f s := by
  cases h <;> rfl

/-- The decoder reads a row's instruction at its address. -/
theorem ReadRow.decode_eq {s : State} {addr r : Byte} {i : Instr} (h : ReadRow s addr i r) :
    decodeRegRead s.par addr = i := by
  cases h with
  | writeOnly off =>
    have hoff : off.setWidth 8 &&& 0xF0#8 = 0x00#8 := by
      simp only [← BitVec.toNat_inj, toNat_and_F0, BitVec.toNat_setWidth, BitVec.toNat_ofNat]
      omega
    simp [decodeRegRead, hoff, BitVec.extractLsb'_setWidth_of_le (show 0 + 4 ≤ 8 by decide),
      BitVec.extractLsb'_eq_self]
  | page c =>
    simp only [decodeRegRead, addrWith, regOffset_regAddr]
    fin_cases c <;> rfl
  | reserved off h =>
    simp only [decodeRegRead, regOffset_regAddr, ← BitVec.toNat_inj, toNat_and_FC, toNat_and_F8, toNat_and_F0,
      BitVec.toNat_setWidth, BitVec.extractLsb'_setWidth_of_le (show 0 + 5 ≤ 8 by decide),
      BitVec.extractLsb'_eq_self, BitVec.toNat_ofNat]
    repeat rw [if_neg (by omega)]
    split
    · rfl
    · exact if_pos (by omega)
  | unmapped addr h =>
    simp only [decodeRegRead, ← BitVec.toNat_inj, toNat_and_FC, toNat_and_F8, toNat_and_F0, BitVec.toNat_ofNat]
    repeat rw [if_neg (by omega)]
  | _ =>
    simp only [decodeRegRead, regOffset_regAddr]
    rfl

/-- `readRegister` at a row's address returns the row's byte. -/
theorem ReadRow.readReg_eq {s : State} {addr r : Byte} {i : Instr} (h : ReadRow s addr i r) :
    readReg s.par addr s.chip s.keys = r := by
  cases h with
  | writeOnly off =>
    simp only [readReg, regOffset_regAddr, BitVec.toNat_setWidth]
    rw [if_neg (by omega), if_pos (by omega)]
  | page c =>
    simp only [readReg, addrWith, regOffset_regAddr]
    fin_cases c <;> rfl
  | reserved off h =>
    simp only [readReg, regOffset_regAddr, BitVec.toNat_setWidth]
    repeat rw [if_neg (by omega)]
  | unmapped addr h => exact if_pos h
  | _ =>
    simp only [readReg, regOffset_regAddr]
    rfl

/-- The instruction of a row is the register read of its byte. -/
theorem ReadRow.exec_eq {s : State} {addr r : Byte} {i : Instr} (h : ReadRow s addr i r) :
    exec i s = regRead r s := by
  cases h <;> rfl

/-! ## Accesses that are let pass (R402) -/

theorem State.MayAccess.accessCheck {s : State} (hs : s.MayAccess) : accessCheck s = none := by
  rw [accessCheck_pass]
  rcases hs with ⟨hcaller, hlock⟩ | ⟨hcaller, hlock⟩ <;> simp [hcaller, hlock]

/-- A register write that is let pass replaces the chip and returns nothing. -/
theorem regWrite_next {s : State} {f : Chip → Chip} {ch : Chip} (hs : s.MayAccess) (hf : f s.chip = ch) :
    regWrite f s = .next { s with chip := ch, result := .unit } := by
  subst hf
  exact guarded_pass (fun s => (s.withChip (f s.chip), .unit)) hs.accessCheck

/-- A register read that is let pass returns the byte and changes nothing else. -/
theorem regRead_next {s : State} (r : Byte) (hs : s.MayAccess) :
    regRead r s = .next { s with result := .byte r } := guarded_pass _ hs.accessCheck

/-! ## The two dispatches (R130) -/

/-- Settles O9: an address has one row in each table, which decides both what the call does and what the decoded
instruction does. -/
theorem registerDispatch : Obligations.RegisterDispatch := by
  intro addr v s hs
  obtain ⟨iw, f, hw⟩ := exists_writeRow s.par addr v
  obtain ⟨ir, r, hr⟩ := exists_readRow s addr
  have hcall : exec (.writeRegister addr v) s = regWrite f s := by
    rw [← hw.writeReg_eq]
    rfl
  have hread : exec (.readRegister addr) s = regRead r s := by
    rw [← hr.readReg_eq]
    rfl
  rw [hw.decode_eq, hr.decode_eq, hw.exec_eq, hr.exec_eq, hcall, hread]
  exact ⟨⟨_, regWrite_next hs rfl, regWrite_next hs rfl, rfl⟩, r, regRead_next r hs, regRead_next r hs⟩

/-! ## The effects of the writes on the chip (R131 to R139) -/

/-- R131 with the kept bits 11:8 written as a mask of the code. -/
theorem wrFrqLo_eq (c : Fin 3) (v : Byte) (ch : Chip) : wrFrqLo c v ch =
    { ch with frq := ch.frq.set c ((ch.frq.get c &&& 0xF00#12) ||| v.setWidth 12) } := by
  have hcode (x : BitVec 12) : x.extractLsb' 8 4 ++ v = (x &&& 0xF00#12) ||| v.setWidth 12 := by
    refine BitVec.eq_of_getLsbD_eq fun i hi => ?_
    rw [BitVec.getLsbD_append]
    interval_cases i <;> simp
  rw [wrFrqLo, hcode]

/-- R132 with the kept bits 7:0 written as a mask of the code. -/
theorem wrToneCtl_eq (c : Fin 3) (v : Byte) (ch : Chip) : wrToneCtl c v ch =
    { ch with
      frq := ch.frq.set c ((ch.frq.get c &&& 0x0FF#12) ||| (v.setWidth 12 <<< 8))
      dist := ch.dist.set c ((v >>> 4).setWidth 2)
      hp := ch.hp.set c.castSucc (v.getLsbD 6)
      rm := ch.rm.set c.castSucc (v.getLsbD 7) } := by
  have hcode (x : BitVec 12) :
      toneFrqHi v ++ x.extractLsb' 0 8 = (x &&& 0x0FF#12) ||| (v.setWidth 12 <<< 8) := by
    refine BitVec.eq_of_getLsbD_eq fun i hi => ?_
    rw [BitVec.getLsbD_append]
    interval_cases i <;> simp [toneFrqHi]
  rw [wrToneCtl, hcode, BitVec.setWidth_ushiftRight_eq_extractLsb]
  rfl

/-- R41, the length of the variable counter that a noise control byte selects. -/
theorem vlenLen_noiseVlsel (v : Byte) :
    vlenLen (noiseVlsel v) = 2 ^ [17, 15, 11, 9].getD (v.toNat / 4 % 4) 0 - 1 := by
  have hvlen : ∀ w : BitVec 2, vlen w = [17, 15, 11, 9].getD w.toNat 0 := by decide
  have hsel : (noiseVlsel v).toNat = v.toNat / 4 % 4 := by
    rw [noiseVlsel, BitVec.extractLsb'_toNat, Nat.shiftRight_eq_div_pow]
  rw [vlenLen, hvlen, hsel]

/-- R133 with every field read off the byte. -/
theorem wrNoiseCtl_eq (v : Byte) (ch : Chip) : wrNoiseCtl v ch =
    { ch with
      nclk := v.setWidth 2
      vlsel := (v >>> 2).setWidth 2
      pv := ch.pv % (2 ^ [17, 15, 11, 9].getD (v.toNat / 4 % 4) 0 - 1)
      swap := v.getLsbD 4
      lp3 := v.getLsbD 5
      hp := { ch.hp with c3 := v.getLsbD 6 }
      rm := { ch.rm with c3 := v.getLsbD 7 } } := by
  rw [wrNoiseCtl, vlenLen_noiseVlsel, BitVec.setWidth_ushiftRight_eq_extractLsb, noiseClk,
    extractLsb'_zero_eq_setWidth]
  rfl

/-- R95: the sound mode is bits 2:1. -/
theorem sysSndSel_eq (v : Byte) : sysSndSel v = (v >>> 1).setWidth 2 :=
  BitVec.setWidth_ushiftRight_eq_extractLsb.symm

theorem Quad.set_get_self {α : Type} (t : Quad α) (i : Fin 4) : t.set i (t.get i) = t := by
  fin_cases i <;> rfl

/-- The part of R138 for one source: its enable is replaced, its active bit kept unless strobed. -/
theorem wrIntSource_eq (v : Byte) (i : Fin 4) (ch : Chip) : wrIntSource v i ch =
    { ch with
      intEn := ch.intEn.set i (v.getLsbD (2 * i.val))
      intActive := ch.intActive.set i (ch.intActive.get i && !v.getLsbD (2 * i.val + 1)) } := by
  unfold wrIntSource acknowledge
  cases hclear : v.getLsbD (2 * i.val + 1) <;>
    simp [intEnables, intClears, hclear, Quad.set_get_self]

/-- R138: the four sources together replace both tables. -/
theorem wrIntCtl_eq (v : Byte) (ch : Chip) : wrIntCtl v ch =
    { ch with
      intEn := intEnables v
      intActive := Quad.ofFn fun i => ch.intActive.get i && !v.getLsbD (2 * i.val + 1) } := by
  simp only [wrIntCtl, wrIntSource_eq]
  rfl

/-! ## The writes (R131 to R142) -/

/-- Settles O1, by the rows of the three addresses and `wrFrqLo_eq`. -/
theorem frequencyLowWrite : Obligations.FrequencyLowWrite := by
  intro v s hs
  exact ⟨WriteRow.frqLo0.decode_eq, WriteRow.frqLo1.decode_eq, WriteRow.frqLo2.decode_eq,
    regWrite_next hs (wrFrqLo_eq 0 v s.chip), regWrite_next hs (wrFrqLo_eq 1 v s.chip),
    regWrite_next hs (wrFrqLo_eq 2 v s.chip)⟩

/-- Settles O2, by the rows of the three addresses and `wrToneCtl_eq`. -/
theorem toneControlWrite : Obligations.ToneControlWrite := by
  intro v s hs
  exact ⟨WriteRow.toneCtl0.decode_eq, WriteRow.toneCtl1.decode_eq, WriteRow.toneCtl2.decode_eq,
    regWrite_next hs (wrToneCtl_eq 0 v s.chip), regWrite_next hs (wrToneCtl_eq 1 v s.chip),
    regWrite_next hs (wrToneCtl_eq 2 v s.chip)⟩

/-- Settles O3, by the row of 0xA6 and `wrNoiseCtl_eq`. -/
theorem noiseControlWrite : Obligations.NoiseControlWrite := by
  intro v s hs
  exact ⟨WriteRow.noiseCtl.decode_eq, regWrite_next hs (wrNoiseCtl_eq v s.chip)⟩

/-- Settles O4: each row's fields are the bits of the byte that the statement shifts and truncates to. -/
theorem plainRegisterWrites : Obligations.PlainRegisterWrites := by
  intro v c s hs
  exact ⟨WriteRow.sysCtl.decode_eq, (WriteRow.volL c).decode_eq, (WriteRow.volR c).decode_eq,
    (WriteRow.page c).decode_eq, WriteRow.kbdRow.decode_eq,
    regWrite_next hs (by rw [wrSysCtl, sysSndSel_eq]; rfl),
    regWrite_next hs (by rw [wrVolL, volume, extractLsb'_zero_eq_setWidth]),
    regWrite_next hs (by rw [wrVolR, volume, extractLsb'_zero_eq_setWidth]),
    regWrite_next hs rfl,
    regWrite_next hs (by rw [wrKbdRow, keyRow, extractLsb'_zero_eq_setWidth])⟩

/-- Settles O5, by the row of 0xB4 and `wrIntCtl_eq`. -/
theorem interruptControlWrite : Obligations.InterruptControlWrite := by
  intro v s hs
  refine ⟨WriteRow.intCtl.decode_eq, _, regWrite_next hs (wrIntCtl_eq v s.chip), rfl, fun i => ?_⟩
  exact ⟨Quad.get_ofFn _ i, Quad.get_ofFn _ i⟩

/-- Settles O6: the rows of the ignored writes leave the chip as it is. -/
theorem ignoredWrites : Obligations.IgnoredWrites := by
  intro off addr v s hs
  exact ⟨WriteRow.b6.decode_eq, fun h => (WriteRow.reserved off h).decode_eq,
    fun h => (WriteRow.unmapped addr h).decode_eq, regWrite_next hs rfl, regWrite_next hs rfl, regWrite_next hs rfl⟩

/-! ## The bits of the bytes read (R99 to R101) -/

/-- The byte that `byteOfBits` has built after the first `n` of its steps. -/
def bitsBelow (f : Nat → Bool) (n : Nat) : Byte :=
  (List.range n).foldl (fun r j => if f j then r ||| (1#8 <<< j) else r) 0#8

theorem byteOfBits_eq_bitsBelow (f : Nat → Bool) : byteOfBits f = bitsBelow f 8 := rfl

theorem bitsBelow_succ (f : Nat → Bool) (n : Nat) :
    bitsBelow f (n + 1) = if f n then bitsBelow f n ||| (1#8 <<< n) else bitsBelow f n := by
  simp [bitsBelow, List.range_succ]

theorem getLsbD_bitsBelow (f : Nat → Bool) (n j : Nat) (hj : j < 8) :
    (bitsBelow f n).getLsbD j = (decide (j < n) && f j) := by
  induction n with
  | zero => simp [bitsBelow]
  | succ n ih =>
    have hbit : (1#8 <<< n).getLsbD j = decide (j = n) := by
      simp only [BitVec.getLsbD_shiftLeft, BitVec.getLsbD_one]
      grind
    rw [bitsBelow_succ]
    rcases eq_or_ne j n with rfl | hne
    · cases hf : f j <;> simp [hf, ih, hbit]
    · have hlt : j < n + 1 ↔ j < n := by omega
      cases hf : f n <;> simp [ih, hbit, hne, hlt]

/-- Bit `j` of the byte is `f j`. -/
theorem getLsbD_byteOfBits (f : Nat → Bool) (j : Nat) (hj : j < 8) : (byteOfBits f).getLsbD j = f j := by
  rw [byteOfBits_eq_bitsBelow, getLsbD_bitsBelow f 8 j hj, decide_eq_true hj, Bool.true_and]

/-- R99, R145: each source's state and active bit. -/
theorem getLsbD_intStatus (ch : Chip) (i : Fin 4) :
    (intStatus ch).getLsbD (2 * i.val) = ch.intState.get i ∧
    (intStatus ch).getLsbD (2 * i.val + 1) = ch.intActive.get i := by
  unfold intStatus
  rw [getLsbD_byteOfBits _ _ (by omega), getLsbD_byteOfBits _ _ (by omega)]
  fin_cases i <;> exact ⟨rfl, rfl⟩

/-- R100, R146: the keys of the latched row, active low. -/
theorem getLsbD_keyColumns (ch : Chip) (keys : Keys) (j : Nat) (hj : j < 8) :
    (keyColumns ch keys).getLsbD j = !keys.getLsbD (ch.kbdRow.toNat * 8 + j) := getLsbD_byteOfBits _ j hj

/-- R101, R147: the two tape bits over six ones. -/
theorem getLsbD_tapeByte (ch : Chip) (j : Nat) (hj : j < 8) :
    (tapeByte ch).getLsbD j = if j = 7 then ch.tapeIn else if j = 6 then ch.tapeFb else true :=
  getLsbD_byteOfBits _ j hj

/-! ## The reads (R143 to R149) -/

/-- Settles O7: the rows of the write-only, reserved and unmapped addresses return the sentinel. -/
theorem sentinelReads : Obligations.SentinelReads := by
  intro off off' addr s hs
  exact ⟨(ReadRow.writeOnly off).decode_eq, fun h => (ReadRow.reserved off' h).decode_eq,
    fun h => (ReadRow.unmapped addr h).decode_eq, regRead_next _ hs, regRead_next _ hs, regRead_next _ hs⟩

/-- Settles O8, by the rows of the readable registers and the bits of their bytes. -/
theorem statusReads : Obligations.StatusReads := by
  intro k s hs
  refine ⟨(ReadRow.page k).decode_eq, ReadRow.intStat.decode_eq, ReadRow.kbdCol.decode_eq, ReadRow.tape.decode_eq,
    regRead_next _ hs,
    ⟨_, regRead_next _ hs, getLsbD_intStatus s.chip⟩,
    ⟨_, regRead_next _ hs, getLsbD_keyColumns s.chip s.keys⟩,
    _, regRead_next _ hs, getLsbD_tapeByte s.chip 7 (by decide), getLsbD_tapeByte s.chip 6 (by decide),
    fun j hj => ?_⟩
  rw [getLsbD_tapeByte s.chip j (by omega), if_neg (by omega), if_neg (by omega)]

end Sys2Proof.Machine

/-! # The chip cycle (41_chip_cycle.md)

Each step of the cycle (R172) is an equation that gives the chip after it as a record update whose fields are
functions of the chip before it. `chipCycle_eq` puts the steps together: the statements about one cycle read the
fields of its right-hand side. -/

namespace Sys2Proof.Machine

/-! ## Polynomial tables (R170) -/

/-- One shift moves every bit but the last one down. -/
theorem testBit_lfsrNext_of_lt (n t s k : Nat) (hk : k + 1 < n) :
    (lfsrNext n t s).testBit k = s.testBit (k + 1) := by
  have hne : ¬(n - 1 ≤ k) := by omega
  simp [lfsrNext, Nat.testBit_shiftLeft, Nat.testBit_shiftRight, hne, Nat.add_comm 1 k]

/-- One shift of an n-bit register feeds the xor of bit 0 and bit n - t into the last bit. -/
theorem testBit_lfsrNext_last (n t s : Nat) (hn : 1 ≤ n) (hs : s < 2 ^ n) :
    (lfsrNext n t s).testBit (n - 1) = (s.testBit 0 ^^ s.testBit (n - t)) := by
  have hshift : (s >>> 1).testBit (n - 1) = false := by
    rw [Nat.testBit_shiftRight, Nat.add_sub_cancel' hn]
    exact Nat.testBit_lt_two_pow hs
  rw [lfsrNext, Nat.testBit_or, hshift, Nat.testBit_shiftLeft]
  cases s.testBit 0 <;> cases s.testBit (n - t) <;> simp

theorem lfsrNext_lt (n t s : Nat) (hn : 1 ≤ n) (hs : s < 2 ^ n) : lfsrNext n t s < 2 ^ n := by
  refine Nat.or_lt_two_pow ((Nat.shiftRight_le s 1).trans_lt hs) ?_
  have hlast : 2 ^ (n - 1) < 2 ^ n := Nat.pow_lt_pow_right (by decide) (by omega)
  split
  · simpa [Nat.shiftLeft_eq] using hlast
  · simp

theorem lfsrRun_add (n t i j s : Nat) : lfsrRun n t (i + j) s = lfsrRun n t j (lfsrRun n t i s) := by
  induction i generalizing s with
  | zero => simp [lfsrRun]
  | succ i ih => rw [Nat.add_right_comm, lfsrRun, ih, lfsrRun]

theorem lfsrRun_lt (n t i s : Nat) (hn : 1 ≤ n) (hs : s < 2 ^ n) : lfsrRun n t i s < 2 ^ n := by
  induction i generalizing s with
  | zero => exact hs
  | succ i ih => exact ih _ (lfsrNext_lt n t s hn hs)

/-- The first n bits that an n-bit register puts out are those it starts with. -/
theorem testBit_lfsrRun (n t j k s : Nat) (hjk : j + k < n) :
    (lfsrRun n t j s).testBit k = s.testBit (j + k) := by
  induction j generalizing s with
  | zero => rw [lfsrRun, Nat.zero_add]
  | succ j ih =>
    rw [lfsrRun, ih _ (by omega), testBit_lfsrNext_of_lt n t s _ (by omega), Nat.add_right_comm]

/-- Entry i + j for j below n is bit j of the register after i shifts. -/
theorem polyTable_add (n t i j : Nat) (hj : j < n) :
    polyTable n t (i + j) = (lfsrRun n t i (2 ^ n - 1)).testBit j := by
  rw [polyTable, lfsrRun_add, testBit_lfsrRun n t j 0 _ hj, Nat.add_zero]

theorem polyTable_of_lt (n t i : Nat) (hi : i < n) : polyTable n t i = true := by
  rw [← Nat.zero_add i, polyTable_add n t 0 i hi, lfsrRun, Nat.testBit_two_pow_sub_one, decide_eq_true hi]

/-- R170: after i shifts the next one feeds entry i + n in. -/
theorem polyTable_recurrence (n t i : Nat) (ht : 1 ≤ t) (htn : t ≤ n) :
    polyTable n t (i + n) = (polyTable n t i ^^ polyTable n t (i + n - t)) := by
  have hn : 1 ≤ n := ht.trans htn
  have hreg : lfsrRun n t i (2 ^ n - 1) < 2 ^ n :=
    lfsrRun_lt n t i _ hn (Nat.sub_lt (Nat.two_pow_pos n) Nat.one_pos)
  have hnew : polyTable n t (i + n) = (lfsrNext n t (lfsrRun n t i (2 ^ n - 1))).testBit (n - 1) := by
    rw [show i + n = i + 1 + (n - 1) by omega, polyTable_add n t (i + 1) _ (by omega), lfsrRun_add]
    rfl
  rw [hnew, testBit_lfsrNext_last n t _ hn hreg, Nat.add_sub_assoc htn, polyTable_add n t i _ (by omega)]
  rfl

/-! ## The selected tables and levels (R40 to R42, R171, R182) -/

theorem twoBits_cases (w : BitVec 2) : w = 0 ∨ w = 1 ∨ w = 2 ∨ w = 3 := by
  revert w
  decide

theorem vlen_eq (w : BitVec 2) : vlen w = [17, 15, 11, 9].getD w.toNat 0 := by
  revert w
  decide

theorem varTap_eq (taps : Taps) (w : BitVec 2) :
    varTap taps w = [taps.t17, taps.t15, taps.t11, taps.t9].getD w.toNat 0 := by
  rcases twoBits_cases w with rfl | rfl | rfl | rfl <;> rfl

/-- A selector's bit depends on the polynomial counters and the width of the variable one alone. -/
theorem polyBit_congr (p : Params) {ch ch' : Chip} (h4 : ch'.p4 = ch.p4) (h5 : ch'.p5 = ch.p5)
    (h7 : ch'.p7 = ch.p7) (hv : ch'.pv = ch.pv) (hsel : ch'.vlsel = ch.vlsel) :
    polyBit p ch' = polyBit p ch := by
  funext sel
  simp only [polyBit, h4, h5, h7, hv, hsel]

theorem noiseClock_eq (ch : Chip) :
    noiseClock ch = [ch.fixOsc, ch.raw.c0, ch.raw.c1, ch.raw.c2].getD ch.nclk.toNat false := by
  rcases twoBits_cases ch.nclk with h | h | h | h <;> simp [noiseClock, selClock, h]

/-! ## Tone channels (R176, R177) -/

/-- The table that a function of the tone channel gives. -/
def Tri.ofFn {α : Type} (f : Fin 3 → α) : Tri α := ⟨f 0, f 1, f 2⟩

@[simp] theorem Tri.get_ofFn {α : Type} (f : Fin 3 → α) (c : Fin 3) : (Tri.ofFn f).get c = f c := by
  fin_cases c <;> rfl

theorem Tri.set_get_self {α : Type} (t : Tri α) (c : Fin 3) : t.set c (t.get c) = t := by
  fin_cases c <;> rfl

/-- The counter of tone channel c after a cycle. -/
def tonePhase (ch : Chip) (c : Fin 3) : BitVec 12 :=
  if ch.phase.get c = 0 then ch.frq.get c else ch.phase.get c - 1

/-- The flip-flop of tone channel c after a cycle. -/
def toneOsc (ch : Chip) (c : Fin 3) : Bool := if ch.phase.get c = 0 then !ch.osc.get c else ch.osc.get c

/-- The raw output of tone channel c after a cycle whose step 1 is done. -/
def toneRaw (p : Params) (ch : Chip) (c : Fin 3) : Bool :=
  if ch.phase.get c = 0 then toneSource p ch c (!ch.osc.get c) else ch.raw.get c.castSucc

theorem stepTone_eq (p : Params) (c : Fin 3) (ch : Chip) : stepTone p c ch =
    { ch with
      phase := ch.phase.set c (tonePhase ch c)
      osc := ch.osc.set c (toneOsc ch c)
      raw := ch.raw.set c.castSucc (toneRaw p ch c) } := by
  unfold stepTone tonePhase toneOsc toneRaw
  split
  · next h => simp [h]
  · next h => simp [h, Tri.set_get_self, Quad.set_get_self]

/-- The three tone channels step independently: none reads what another one writes. -/
theorem stepTones_eq (p : Params) (ch : Chip) : stepTone p 2 (stepTone p 1 (stepTone p 0 ch)) =
    { ch with
      phase := Tri.ofFn (tonePhase ch)
      osc := Tri.ofFn (toneOsc ch)
      raw := ⟨toneRaw p ch 0, toneRaw p ch 1, toneRaw p ch 2, ch.raw.c3⟩ } := by
  simp only [stepTone_eq]
  rfl

/-- R177 with the selector of R40 written out. -/
theorem toneSource_eq (p : Params) (ch : Chip) (c : Fin 3) (o : Bool) : toneSource p ch c o =
    if ch.dist.get c = 0 then o
    else polyBit p ch (if ch.dist.get c = 1 then .poly4
      else if ch.dist.get c = 2 then .poly5
      else if ch.swap then .polyVariable else .poly7) := by
  unfold toneSource selTone
  by_cases h0 : ch.dist.get c = 0
  · simp [h0]
  · have hsel : (if ch.dist.get c = 1 then Selector.poly4 else if ch.dist.get c = 2 then .poly5
        else if ch.swap then .polyVariable else .poly7) ≠ .none := by
      repeat' split
      all_goals decide
    simp only [BitVec.ofNat_eq_ofNat] at h0 hsel ⊢
    simp only [if_neg h0, if_neg hsel]

/-! ## Steps 1 to 4 (R173 to R184) -/

theorem stepFixOsc_eq (p : Params) (ch : Chip) : stepFixOsc p ch =
    { ch with
      fixPhase := if ch.fixPhase = 0 then p.fixOscReload else ch.fixPhase - 1
      fixOsc := if ch.fixPhase = 0 then !ch.fixOsc else ch.fixOsc } := by
  unfold stepFixOsc
  split <;> simp [*]

/-- The chip after steps 1 to 3, whose levels clock the noise channel. -/
def oscillators (p : Params) (ch : Chip) : Chip :=
  stepFixOsc p (stepTone p 2 (stepTone p 1 (stepTone p 0 (stepPoly ch))))

/-- What steps 1 to 3 change. -/
theorem oscillators_eq (p : Params) (ch : Chip) : oscillators p ch =
    { ch with
      p4 := (ch.p4 + 1) % 15
      p5 := (ch.p5 + 1) % 31
      p7 := (ch.p7 + 1) % 127
      pv := (ch.pv + 1) % vlenLen ch.vlsel
      phase := Tri.ofFn (tonePhase ch)
      osc := Tri.ofFn (toneOsc ch)
      raw := ⟨toneRaw p (stepPoly ch) 0, toneRaw p (stepPoly ch) 1, toneRaw p (stepPoly ch) 2, ch.raw.c3⟩
      fixPhase := if ch.fixPhase = 0 then p.fixOscReload else ch.fixPhase - 1
      fixOsc := if ch.fixPhase = 0 then !ch.fixOsc else ch.fixOsc } := by
  rw [oscillators, stepTones_eq, stepFixOsc_eq]
  rfl

/-- The raw output of the noise channel after a cycle whose steps 1 to 3 are done (R183). -/
def noiseRaw (p : Params) (ch : Chip) : Bool :=
  if rise ch.clkPrev (noiseClock ch) then polyBit p ch (selNoise ch) else ch.raw.c3

theorem stepNoise_eq (p : Params) (ch : Chip) : stepNoise p ch =
    { ch with
      raw := { ch.raw with c3 := noiseRaw p ch }
      clkPrev := noiseClock ch } := by
  have hraw : (if rise ch.clkPrev (noiseClock ch) then ch.raw.set 3 (polyBit p ch (selNoise ch)) else ch.raw) =
      { ch.raw with c3 := noiseRaw p ch } := by
    unfold noiseRaw
    split <;> rfl
  rw [← hraw]
  rfl

/-- The chip after steps 1 to 4, on which the modulation works. -/
def voices (p : Params) (ch : Chip) : Chip := stepNoise p (oscillators p ch)

/-- What steps 1 to 4 change. -/
theorem voices_eq (p : Params) (ch : Chip) : voices p ch =
    { ch with
      p4 := (ch.p4 + 1) % 15
      p5 := (ch.p5 + 1) % 31
      p7 := (ch.p7 + 1) % 127
      pv := (ch.pv + 1) % vlenLen ch.vlsel
      phase := Tri.ofFn (tonePhase ch)
      osc := Tri.ofFn (toneOsc ch)
      raw := ⟨toneRaw p (stepPoly ch) 0, toneRaw p (stepPoly ch) 1, toneRaw p (stepPoly ch) 2,
        noiseRaw p (oscillators p ch)⟩
      fixPhase := if ch.fixPhase = 0 then p.fixOscReload else ch.fixPhase - 1
      fixOsc := if ch.fixPhase = 0 then !ch.fixOsc else ch.fixOsc
      clkPrev := noiseClock (oscillators p ch) } := by
  rw [voices, stepNoise_eq, oscillators_eq]

/-! ## Step 7: the timers and the latch (R196 to R198) -/

/-- A new level moves the source's state bit and latches exactly on a fall of an enabled source (R198). -/
theorem setIntState_eq (i : Fin 4) (b : Bool) (ch : Chip) : setIntState i b ch =
    { ch with
      intState := ch.intState.set i b
      intActive := ch.intActive.set i (ch.intActive.get i || (ch.intEn.get i && ch.intState.get i && !b)) } := by
  rcases setIntState_cases i b ch with ⟨heq, hno⟩ | ⟨heq, hstate, rfl, hen, -⟩
  · have hkeep : (ch.intActive.get i || (ch.intEn.get i && ch.intState.get i && !b)) = ch.intActive.get i := by
      grind
    rw [heq, hkeep, Quad.set_get_self]
  · simp [heq, hstate, hen]

/-- The level of the 1 Hz source after a cycle (R196). -/
def oneHzLevel (ch : Chip) : Bool := if ch.oneHzPhase = 0 then !ch.intState.c1 else ch.intState.c1

theorem stepOneHz_eq (p : Params) (ch : Chip) : stepOneHz p ch =
    setIntState 1 (oneHzLevel ch)
      { ch with oneHzPhase := if ch.oneHzPhase = 0 then p.oneHzReload else ch.oneHzPhase - 1 } := by
  unfold stepOneHz oneHzLevel
  split
  · next h => simp [h, Quad.get]
  · next h => simp [h, Quad.get]

/-- The sound timer counts in modes 0 and 1 only (R197). -/
def sndPhaseNext (p : Params) (ch : Chip) : Word :=
  if ch.sndSel = 2#2 ∨ ch.sndSel = 3#2 then ch.sndPhase
  else if ch.sndPhase = 0#32 then sndReload p ch.sndSel else ch.sndPhase - 1

/-- The level of the sound source after a cycle whose step 2 is done (R197). -/
def soundLevel (ch : Chip) : Bool :=
  if ch.sndSel = 2#2 then ch.osc.c0
  else if ch.sndSel = 3#2 then ch.osc.c1
  else if ch.sndPhase = 0#32 then !ch.intState.c0 else ch.intState.c0

theorem stepSound_eq (p : Params) (ch : Chip) : stepSound p ch =
    setIntState 0 (soundLevel ch) { ch with sndPhase := sndPhaseNext p ch } := by
  unfold stepSound soundLevel sndPhaseNext
  split
  · next h2 =>
    rw [if_pos (.inl h2)]
    rfl
  split
  · next h3 =>
    rw [if_pos (.inr h3)]
    rfl
  · next h2 h3 =>
    rw [if_neg (not_or.2 ⟨h2, h3⟩)]
    split <;> rfl

/-- What steps 7 and 8 change. -/
theorem settle_eq (p : Params) (ch : Chip) : settle p ch =
    { ch with
      oneHzPhase := if ch.oneHzPhase = 0 then p.oneHzReload else ch.oneHzPhase - 1
      sndPhase := sndPhaseNext p ch
      intState := { ch.intState with c0 := soundLevel ch, c1 := oneHzLevel ch }
      intActive := { ch.intActive with
        c0 := ch.intActive.c0 || (ch.intEn.c0 && ch.intState.c0 && !soundLevel ch)
        c1 := ch.intActive.c1 || (ch.intEn.c1 && ch.intState.c1 && !oneHzLevel ch) }
      rawPrev := ch.raw
      mPrev := Quad.ofFn (modBit ch) } := by
  rw [settle, stepOneHz_eq, setIntState_eq, stepSound_eq, setIntState_eq]
  rfl

/-! ## The whole cycle (R172) -/

/-- What a cycle changes: its steps 1 to 4, and then what the later steps compute from their result. -/
theorem chipCycle_eq (p : Params) (ch : Chip) : (chipCycle p ch).1 =
    { voices p ch with
      hpLatch := Quad.ofFn (hpNext (voices p ch))
      lpHold := lpNext (voices p ch)
      out := Quad.ofFn (gatedBit (voices p ch))
      oneHzPhase := if ch.oneHzPhase = 0 then p.oneHzReload else ch.oneHzPhase - 1
      sndPhase := sndPhaseNext p ch
      intState := { ch.intState with c0 := soundLevel (voices p ch), c1 := oneHzLevel ch }
      intActive := { ch.intActive with
        c0 := ch.intActive.c0 || (ch.intEn.c0 && ch.intState.c0 && !soundLevel (voices p ch))
        c1 := ch.intActive.c1 || (ch.intEn.c1 && ch.intState.c1 && !oneHzLevel ch) }
      rawPrev := (voices p ch).raw
      mPrev := Quad.ofFn (modBit (voices p ch)) } := by
  show settle p (stepGate (voices p ch)) = _
  rw [settle_eq, voices_eq]
  rfl

/-- The call completes, returns the cycle's sample and hands it to the resampler (R205). -/
theorem exec_advanceOneCycle {s : State} (hs : s.MachineFree) : exec .advanceOneCycle s = .next { s with
    chip := (chipCycle s.par s.chip).1
    outbox := .sample (chipCycle s.par s.chip).2.1 (chipCycle s.par s.chip).2.2 :: s.outbox
    result := .sample (chipCycle s.par s.chip).2.1 (chipCycle s.par s.chip).2.2 } := by
  have hexec : exec .advanceOneCycle s = execAdvanceOneCycle s := rfl
  rw [hexec, execAdvanceOneCycle, guarded_pass _ ((unlockedCheck_pass s).2 hs)]
  unfold advance
  generalize chipCycle s.par s.chip = r
  rfl

/-! ## Tone, counters and noise (R173 to R184) -/

/-- A selector's bit after a cycle is its bit after step 1. -/
theorem polyBit_chipCycle (p : Params) (ch : Chip) : polyBit p (chipCycle p ch).1 = polyBit p (stepPoly ch) := by
  rw [chipCycle_eq, voices_eq]
  exact polyBit_congr p rfl rfl rfl rfl rfl

theorem polyBit_oscillators (p : Params) (ch : Chip) : polyBit p (oscillators p ch) = polyBit p (stepPoly ch) := by
  rw [oscillators_eq]
  exact polyBit_congr p rfl rfl rfl rfl rfl

/-- What a cycle makes of a tone channel. -/
theorem chipCycle_tone (p : Params) (ch : Chip) (c : Fin 3) :
    (chipCycle p ch).1.phase.get c = tonePhase ch c ∧ (chipCycle p ch).1.osc.get c = toneOsc ch c ∧
      (chipCycle p ch).1.raw.get c.castSucc = toneRaw p (stepPoly ch) c := by
  rw [chipCycle_eq, voices_eq]
  exact ⟨Tri.get_ofFn _ c, Tri.get_ofFn _ c, by fin_cases c <;> rfl⟩

/-- Settles O26: a tone channel depends on its own counter and, at an underflow, on the counters of step 1. -/
theorem toneCycle : Obligations.ToneCycle := by
  intro s hs
  refine ⟨_, exec_advanceOneCycle hs, fun c => ?_⟩
  obtain ⟨hphase, hosc, hraw⟩ := chipCycle_tone s.par s.chip c
  rw [hphase, hosc, hraw, polyBit_chipCycle]
  constructor
  · intro hzero
    have hsource : toneRaw s.par (stepPoly s.chip) c = toneSource s.par (stepPoly s.chip) c (!s.chip.osc.get c) :=
      if_pos hzero
    exact ⟨if_pos hzero, if_pos hzero, hsource.trans (toneSource_eq _ _ c _)⟩
  · intro hcount
    exact ⟨if_neg hcount, if_neg hcount, if_neg hcount⟩

/-- R182: the noise clock's level is one of the levels at the end of the cycle. -/
theorem noiseClock_oscillators (p : Params) (ch : Chip) : noiseClock (oscillators p ch) =
    [(chipCycle p ch).1.fixOsc, (chipCycle p ch).1.raw.c0, (chipCycle p ch).1.raw.c1,
      (chipCycle p ch).1.raw.c2].getD ch.nclk.toNat false := by
  rw [noiseClock_eq, chipCycle_eq, voices_eq, oscillators_eq]

theorem chipCycle_clkPrev (p : Params) (ch : Chip) :
    (chipCycle p ch).1.clkPrev = noiseClock (oscillators p ch) := by
  rw [chipCycle_eq, voices_eq]

/-- R183: the noise channel's raw output moves exactly on a rise of the noise clock. -/
theorem chipCycle_raw_c3 (p : Params) (ch : Chip) : (chipCycle p ch).1.raw.c3 =
    if ch.clkPrev = false ∧ (chipCycle p ch).1.clkPrev = true then
      polyBit p (chipCycle p ch).1 (if ch.swap then .poly7 else .polyVariable)
    else ch.raw.c3 := by
  have hraw : (chipCycle p ch).1.raw.c3 = noiseRaw p (oscillators p ch) := by
    rw [chipCycle_eq, voices_eq]
  have hold : (oscillators p ch).clkPrev = ch.clkPrev ∧ (oscillators p ch).swap = ch.swap ∧
      (oscillators p ch).raw.c3 = ch.raw.c3 := by
    rw [oscillators_eq]
    exact ⟨rfl, rfl, rfl⟩
  obtain ⟨hclk, hswap, hc3⟩ := hold
  rw [hraw, chipCycle_clkPrev, polyBit_chipCycle, ← polyBit_oscillators, noiseRaw, selNoise, hclk, hswap, hc3]
  simp [rise]

/-- R173, R174: the polynomial counters after a cycle. -/
theorem chipCycle_counters (p : Params) (ch : Chip) :
    (chipCycle p ch).1.p4 = (ch.p4 + 1) % 15 ∧ (chipCycle p ch).1.p5 = (ch.p5 + 1) % 31 ∧
    (chipCycle p ch).1.p7 = (ch.p7 + 1) % 127 ∧
    (chipCycle p ch).1.pv = (ch.pv + 1) % (2 ^ [17, 15, 11, 9].getD ch.vlsel.toNat 0 - 1) := by
  rw [← vlen_eq, chipCycle_eq, voices_eq]
  exact ⟨rfl, rfl, rfl, rfl⟩

/-- R180: the fixed oscillator after a cycle. -/
theorem chipCycle_fixOsc (p : Params) (ch : Chip) :
    (chipCycle p ch).1.fixPhase = (if ch.fixPhase = 0 then p.fixOscReload else ch.fixPhase - 1) ∧
    (chipCycle p ch).1.fixOsc = if ch.fixPhase = 0 then !ch.fixOsc else ch.fixOsc := by
  rw [chipCycle_eq, voices_eq]
  exact ⟨rfl, rfl⟩

/-- Settles O27, by `polyTable_recurrence` and the fields of `chipCycle_eq`. -/
theorem counterAndNoiseCycle : Obligations.CounterAndNoiseCycle := by
  refine ⟨fun n t ht htn => ⟨polyTable_of_lt n t, fun i => polyTable_recurrence n t i ht htn⟩,
    fun p ch => ⟨rfl, rfl, rfl, ?_⟩, fun s hs => ⟨_, exec_advanceOneCycle hs, ?_⟩⟩
  · rw [← vlen_eq, ← varTap_eq]
    rfl
  · obtain ⟨h4, h5, h7, hv⟩ := chipCycle_counters s.par s.chip
    obtain ⟨hphase, hosc⟩ := chipCycle_fixOsc s.par s.chip
    exact ⟨h4, h5, h7, hv, fun hzero => ⟨hphase.trans (if_pos hzero), hosc.trans (if_pos hzero)⟩,
      fun hcount => ⟨hphase.trans (if_neg hcount), hosc.trans (if_neg hcount)⟩,
      (chipCycle_clkPrev s.par s.chip).trans (noiseClock_oscillators s.par s.chip), chipCycle_raw_c3 s.par s.chip⟩

/-! ## Modulation (R186 to R190, R193) -/

/-- Steps 1 to 4 leave the modulation state and its switches as they were. -/
theorem voices_modulation (p : Params) (ch : Chip) :
    (voices p ch).rm = ch.rm ∧ (voices p ch).hp = ch.hp ∧ (voices p ch).lp3 = ch.lp3 ∧
      (voices p ch).rawPrev = ch.rawPrev ∧ (voices p ch).mPrev = ch.mPrev ∧ (voices p ch).hpLatch = ch.hpLatch ∧
      (voices p ch).lpHold = ch.lpHold := by
  rw [voices_eq]
  exact ⟨rfl, rfl, rfl, rfl, rfl, rfl, rfl⟩

/-- R187 with the partner written out. -/
theorem modBit_eq (ch : Chip) (c : Fin 4) :
    modBit ch c = if ch.rm.get c then ch.raw.get c ^^ ch.raw.get (c + 2) else ch.raw.get c := by
  have hpartner : rmPartner c = c + 2 := by
    revert c
    decide
  rw [modBit, hpartner]

/-- R188 with the clear before the set. -/
theorem hpNext_eq (ch : Chip) (c : Fin 4) : hpNext ch c =
    if ch.hp.get c = false then ch.hpLatch.get c
    else if ch.rawPrev.get (c + 1) = true ∧ ch.raw.get (c + 1) = false then false
    else if ch.mPrev.get c = false ∧ modBit ch c = true then true
    else ch.hpLatch.get c := by
  have hpartner : hpPartner c = c + 1 := by
    revert c
    decide
  rw [hpNext, hpartner]
  simp only [rise, fall]
  grind

theorem hpBit_eq (ch : Chip) (c : Fin 4) : hpBit ch c = (modBit ch c && (!ch.hp.get c || hpNext ch c)) := by
  cases h : ch.hp.get c <;> simp [hpBit, h]

/-- What a cycle makes of the modulation state, in terms of the chip after steps 1 to 4. -/
theorem chipCycle_modulation (p : Params) (ch : Chip) :
    (chipCycle p ch).1.raw = (voices p ch).raw ∧ (chipCycle p ch).1.rawPrev = (voices p ch).raw ∧
    (chipCycle p ch).1.lpHold = lpNext (voices p ch) ∧
    ∀ c, (chipCycle p ch).1.mPrev.get c = modBit (voices p ch) c ∧
      (chipCycle p ch).1.hpLatch.get c = hpNext (voices p ch) c ∧
      (chipCycle p ch).1.out.get c = gatedBit (voices p ch) c := by
  rw [chipCycle_eq]
  generalize voices p ch = v
  exact ⟨rfl, rfl, rfl, fun c => ⟨Quad.get_ofFn _ c, Quad.get_ofFn _ c, Quad.get_ofFn _ c⟩⟩

/-- Settles O28: every modulation field is a function of the chip after steps 1 to 4, which has the raw outputs of the
cycle's end and the modulation state of its beginning. -/
theorem modulationCycle : Obligations.ModulationCycle := by
  intro s hs
  refine ⟨_, exec_advanceOneCycle hs, ?_⟩
  obtain ⟨hrm, hhp, hlp, hrawPrev, hmPrev, hlatch, hhold⟩ := voices_modulation s.par s.chip
  obtain ⟨hraw, hhist, hlow, hchannel⟩ := chipCycle_modulation s.par s.chip
  have hbit (c : Fin 4) : hpBit (voices s.par s.chip) c = ((chipCycle s.par s.chip).1.mPrev.get c &&
      (!s.chip.hp.get c || (chipCycle s.par s.chip).1.hpLatch.get c)) := by
    obtain ⟨hm, hnext, -⟩ := hchannel c
    rw [hpBit_eq, hm, hnext, hhp]
  refine ⟨hhist.trans hraw.symm, fun c => ?_, fun c hc => ?_, ?_, ?_⟩
  · obtain ⟨hm, hnext, -⟩ := hchannel c
    constructor
    · rw [hm, modBit_eq, hrm, hraw]
    · rw [hnext, hpNext_eq, hhp, hlatch, hrawPrev, hmPrev, hm, hraw]
  · obtain ⟨-, -, hout⟩ := hchannel c
    rw [hout, gatedBit, if_neg (fun h => hc h.1), hbit]
  · rw [hlow, lpNext, hbit, hlp, hrawPrev, hhold, ← hraw]
    simp only [fall, Bool.and_eq_true, Bool.not_eq_true']
    rfl
  · obtain ⟨-, -, hout⟩ := hchannel 3
    refine hout.trans ?_
    rw [gatedBit, ← hlow, hbit, hlp]
    simp only [true_and]
    rfl

/-! ## The sample (R191, R205) -/

theorem level_le (dac out : Bool) (vol : BitVec 6) : level dac out vol ≤ 252 := by
  have hvol := vol.isLt
  cases dac <;> cases out <;> simp [level, Config.dacShift, Nat.shiftLeft_eq] <;> omega

theorem level_eq (dac out : Bool) (vol : BitVec 6) :
    level dac out vol = if dac then 4 * vol.toNat else if out then vol.toNat else 0 := by
  rw [level, Config.dacShift, Nat.shiftLeft_eq, Nat.mul_comm]

theorem mixSide_le (dac out : Quad Bool) (vol : Quad (BitVec 6)) : mixSide dac out vol ≤ 1008 := by
  have h0 := level_le dac.c0 out.c0 vol.c0
  have h1 := level_le dac.c1 out.c1 vol.c1
  have h2 := level_le dac.c2 out.c2 vol.c2
  have h3 := level_le dac.c3 out.c3 vol.c3
  unfold mixSide
  omega

theorem mixSide_eq_sum (dac out : Quad Bool) (vol : Quad (BitVec 6)) : mixSide dac out vol =
    ([0, 1, 2, 3].map fun c : Fin 4 =>
      if dac.get c then 4 * (vol.get c).toNat else if out.get c then (vol.get c).toNat else 0).sum := by
  simp only [mixSide, level_eq, List.map_cons, List.map_nil, List.sum_cons, List.sum_nil, Nat.add_zero, Nat.add_assoc]
  rfl

/-- The 16 bits of a sample hold the whole sum. -/
theorem toNat_mixSide (dac out : Quad Bool) (vol : Quad (BitVec 6)) :
    (BitVec.ofNat 16 (mixSide dac out vol)).toNat = mixSide dac out vol := by
  have hle := mixSide_le dac out vol
  rw [BitVec.toNat_ofNat, Nat.mod_eq_of_lt (by omega)]

/-- The sample is that of the volumes of the beginning and the output bits of the end of the cycle. -/
theorem chipCycle_snd (p : Params) (ch : Chip) : (chipCycle p ch).2 =
    (BitVec.ofNat 16 (mixSide ch.dac (chipCycle p ch).1.out ch.volL),
      BitVec.ofNat 16 (mixSide ch.dac (chipCycle p ch).1.out ch.volR)) := by
  show mix (stepGate (voices p ch)) = _
  rw [mix, chipCycle_eq, voices_eq]
  rfl

/-- Settles O29, by the exact sums of `chipCycle_snd` and the frame of `chipCycle_eq`. -/
theorem mixCycle : Obligations.MixCycle := by
  intro s hs
  refine ⟨_, _, _, exec_advanceOneCycle hs, rfl, ?_⟩
  rw [chipCycle_snd]
  simp only [toNat_mixSide]
  refine ⟨mixSide_eq_sum _ _ _, mixSide_eq_sum _ _ _, mixSide_le _ _ _, mixSide_le _ _ _, ?_⟩
  rw [chipCycle_eq, voices_eq]
  exact ⟨rfl, rfl, rfl, rfl, rfl, rfl, rfl, rfl, rfl, rfl, rfl, rfl, rfl, rfl, rfl, rfl, rfl⟩

/-! ## Timers and setters (R196 to R198, R211 to R214) -/

/-- In modes 0 and 1 the sound timer counts and its source toggles at 0 (R197). -/
theorem sound_of_timer (p : Params) (ch : Chip) (hmode : ch.sndSel = 0 ∨ ch.sndSel = 1) :
    sndPhaseNext p ch = (if ch.sndPhase = 0 then if ch.sndSel = 0 then p.sndReload1k else p.sndReload50
      else ch.sndPhase - 1) ∧
    soundLevel ch = if ch.sndPhase = 0 then !ch.intState.c0 else ch.intState.c0 := by
  have h2 : ch.sndSel ≠ 2#2 := by rcases hmode with h | h <;> rw [h] <;> decide
  have h3 : ch.sndSel ≠ 3#2 := by rcases hmode with h | h <;> rw [h] <;> decide
  exact ⟨if_neg (not_or.2 ⟨h2, h3⟩), (if_neg h2).trans (if_neg h3)⟩

/-- In mode 2 the sound source follows flip-flop 0 and the timer rests (R197). -/
theorem sound_of_osc0 (p : Params) (ch : Chip) (hmode : ch.sndSel = 2) :
    sndPhaseNext p ch = ch.sndPhase ∧ soundLevel ch = ch.osc.c0 := ⟨if_pos (.inl hmode), if_pos hmode⟩

/-- In mode 3 the sound source follows flip-flop 1 and the timer rests (R197). -/
theorem sound_of_osc1 (p : Params) (ch : Chip) (hmode : ch.sndSel = 3) :
    sndPhaseNext p ch = ch.sndPhase ∧ soundLevel ch = ch.osc.c1 := by
  have h2 : ch.sndSel ≠ 2#2 := by rw [hmode]; decide
  exact ⟨if_pos (.inr hmode), (if_neg h2).trans (if_pos hmode)⟩

/-- What a cycle makes of the timers and the interrupt sources. -/
theorem chipCycle_timers (p : Params) (ch : Chip) :
    (chipCycle p ch).1.oneHzPhase = (if ch.oneHzPhase = 0 then p.oneHzReload else ch.oneHzPhase - 1) ∧
    (chipCycle p ch).1.sndPhase = sndPhaseNext p ch ∧
    (chipCycle p ch).1.intState = { ch.intState with c0 := soundLevel (voices p ch), c1 := oneHzLevel ch } ∧
    (chipCycle p ch).1.intActive = { ch.intActive with
      c0 := ch.intActive.c0 || (ch.intEn.c0 && ch.intState.c0 && !soundLevel (voices p ch))
      c1 := ch.intActive.c1 || (ch.intEn.c1 && ch.intState.c1 && !oneHzLevel ch) } ∧
    (chipCycle p ch).1.osc = (voices p ch).osc := by
  rw [chipCycle_eq]
  generalize voices p ch = v
  exact ⟨rfl, rfl, rfl, rfl, rfl⟩

/-- Steps 1 to 4 leave the sound timer and the state bits as they were. -/
theorem voices_timers (p : Params) (ch : Chip) :
    (voices p ch).sndSel = ch.sndSel ∧ (voices p ch).sndPhase = ch.sndPhase ∧
      (voices p ch).intState = ch.intState := by
  rw [voices_eq]
  exact ⟨rfl, rfl, rfl⟩

/-- R198: an active bit rises exactly where an enabled source's state bit falls; the video sources do not move. -/
theorem chipCycle_intActive (p : Params) (ch : Chip) (i : Fin 4) : (chipCycle p ch).1.intActive.get i =
    (ch.intActive.get i || (ch.intEn.get i && ch.intState.get i && !(chipCycle p ch).1.intState.get i)) := by
  have hstill (a e x : Bool) : a = (a || (e && x && !x)) := by cases x <;> simp
  obtain ⟨-, -, hstate, hactive, -⟩ := chipCycle_timers p ch
  rw [hstate, hactive]
  generalize soundLevel (voices p ch) = snd, oneHzLevel ch = oneHz
  match i with
  | 0 => rfl
  | 1 => rfl
  | 2 => exact hstill ch.intActive.c2 ch.intEn.c2 ch.intState.c2
  | 3 => exact hstill ch.intActive.c3 ch.intEn.c3 ch.intState.c3

/-- Settles O30, by the fields of `chipCycle_timers` in each sound mode. -/
theorem timerCycle : Obligations.TimerCycle := by
  intro s hs
  refine ⟨_, exec_advanceOneCycle hs, ?_⟩
  obtain ⟨honeHz, hsnd, hstate, -, hosc⟩ := chipCycle_timers s.par s.chip
  obtain ⟨hsel, hphase, hint⟩ := voices_timers s.par s.chip
  have hsound (hmode : s.chip.sndSel = 0 ∨ s.chip.sndSel = 1) : soundLevel (voices s.par s.chip) =
      if s.chip.sndPhase = 0 then !s.chip.intState.c0 else s.chip.intState.c0 := by
    rw [(sound_of_timer s.par (voices s.par s.chip) (hsel ▸ hmode)).2, hphase, hint]
  refine ⟨fun hzero => ?_, fun hne => ?_, fun hmode => ⟨fun hzero => ?_, fun hne => ?_⟩, fun h2 => ?_, fun h3 => ?_,
    ?_, ?_, chipCycle_intActive s.par s.chip⟩
  · rw [honeHz, hstate]
    exact ⟨if_pos hzero, if_pos hzero⟩
  · rw [honeHz, hstate]
    exact ⟨if_neg hne, if_neg hne⟩
  · rw [hsnd, hstate, hsound hmode, (sound_of_timer s.par s.chip hmode).1]
    exact ⟨if_pos hzero, if_pos hzero⟩
  · rw [hsnd, hstate, hsound hmode, (sound_of_timer s.par s.chip hmode).1]
    exact ⟨if_neg hne, if_neg hne⟩
  · rw [hsnd, hstate, hosc, (sound_of_osc0 s.par s.chip h2).1,
      (sound_of_osc0 s.par (voices s.par s.chip) (hsel.trans h2)).2]
    exact ⟨rfl, rfl⟩
  · rw [hsnd, hstate, hosc, (sound_of_osc1 s.par s.chip h3).1,
      (sound_of_osc1 s.par (voices s.par s.chip) (hsel.trans h3)).2]
    exact ⟨rfl, rfl⟩
  · rw [hstate]
  · rw [hstate]

/-- A call without a result that is let pass goes to the state its body gives. -/
theorem guardedUnit_pass {check : State → Option Refusal} {s : State} (go : State → State)
    (h : check s = none) : guardedUnit check s go = .next ((go s).withResult .unit) := guarded_pass _ h

/-- Settles O31, by the latch of `setIntState_eq`. -/
theorem externalSetters : Obligations.ExternalSetters := by
  intro b s hs
  have hcheck := (unlockedCheck_pass s).2 hs
  refine ⟨(guardedUnit_pass (fun s => s.withChip (setIntState 2 b s.chip)) hcheck).trans ?_,
    (guardedUnit_pass (fun s => s.withChip (setIntState 3 b s.chip)) hcheck).trans ?_,
    guardedUnit_pass (fun s => s.withChip { s.chip with tapeIn := b }) hcheck,
    guardedUnit_pass (fun s => s.withChip { s.chip with tapeFb := b }) hcheck⟩
  · rw [setIntState_eq]
    rfl
  · rw [setIntState_eq]
    rfl

end Sys2Proof.Machine

/-! # The scanline decoder (42_scanline_decoder.md)

`exec` hands every tag to `tagStep`, which for the seven tags with pixels is `emit` of a pixel formula. What a tag
does to the row follows from the two lemmas about `writeRun` (R220, R230); that a decoder at its end ignores every
tag is `tagStep_of_finished`. -/

namespace Sys2Proof.Machine

/-! ## Decoding a tag (R103, R104) -/

/-- The decoder reads every well-formed tag back from its bytes, and leaves what stands behind them. -/
theorem decodeTag_encode (p : Params) {i : Instr} (rest : Bytes) (htag : i.format = .scanlineTag)
    (hwf : WellFormed p i) : decodeTag (encode p i ++ rest) = some (i, rest) := by
  cases i with
  | blank | fill1 | fill2 | fill4 | fill8 | bmp8 | bmp16 => rfl
  | unknownTag tag =>
    have hunknown : 0x07 ≤ tag.toNat := of_decide_eq_true hwf
    simp only [encode, List.cons_append, List.nil_append, decodeTag, ← BitVec.toNat_inj, BitVec.toNat_ofNat]
    repeat rw [if_neg (by omega)]
  | _ => cases htag

/-! ## Running a tag (R220) -/

/-- A tag changes the decoder's working state by `tagStep` and nothing else of the block. -/
theorem exec_scanlineTag {i : Instr} (s : State) (htag : i.format = .scanlineTag) :
    exec i s = .next { s with dec := tagStep s.par i s.dec, result := .unit } := by
  cases i with
  | blank | fill1 | fill2 | fill4 | fill8 | bmp8 | bmp16 | unknownTag => rfl
  | _ => cases htag

theorem LineDec.finished_iff (p : Params) (d : LineDec) :
    d.finished p = true ↔ d.stopped = true ∨ p.outW ≤ d.x := by
  simp [LineDec.finished]

theorem State.Decoding.not_finished {s : State} (hs : s.Decoding) : ¬ s.dec.finished s.par = true := by
  obtain ⟨hrunning, hroom, -⟩ := hs
  simp [LineDec.finished_iff, hrunning, hroom]

theorem emit_of_finished {p : Params} {d : LineDec} (pix : Nat → Byte) (h : d.finished p = true) :
    emit p pix d = d := if_pos h

theorem emit_of_not_finished {p : Params} {d : LineDec} (pix : Nat → Byte) (h : ¬ d.finished p = true) :
    emit p pix d = { d with row := writeRun d.row d.x (pixels pix), x := d.x + 16 } := if_neg h

theorem endOfData_of_finished {p : Params} {d : LineDec} (h : d.finished p = true) : endOfData p d = d := if_pos h

theorem endOfData_of_not_finished {p : Params} {d : LineDec} (h : ¬ d.finished p = true) :
    endOfData p d = { d with stopped := true } := if_neg h

theorem tagStep_unknownTag (p : Params) (tag : Byte) (d : LineDec) : tagStep p (.unknownTag tag) d = endOfData p d :=
  rfl

/-- R229, R230: a decoder that has stopped, or whose row is full, ignores every tag. -/
theorem tagStep_of_finished {p : Params} {d : LineDec} (i : Instr) (h : d.finished p = true) :
    tagStep p i d = d := by
  cases i with
  | blank | fill1 | fill2 | fill4 | fill8 | bmp8 | bmp16 => exact emit_of_finished _ h
  | _ => exact endOfData_of_finished h

/-! ## Writing a run of pixels (R220, R230) -/

@[simp] theorem length_pixels (pix : Nat → Byte) : (pixels pix).length = 16 := by
  simp [pixels, Config.slotPx]

theorem getD_pixels (pix : Nat → Byte) (b : Byte) {j : Nat} (hj : j < 16) : (pixels pix).getD j b = pix j := by
  simp [pixels, Config.slotPx, List.getD_eq_getElem?_getD, hj]

/-- The row keeps its width. -/
theorem length_writeRun {row : Bytes} {x : Nat} (run : Bytes) (hx : x ≤ row.length) :
    (writeRun row x run).length = row.length := by
  simp only [writeRun, List.length_append, List.length_take, List.length_drop]
  omega

/-- The run's pixels stand from `x` on as far as the row goes; every other pixel is as before. -/
theorem getD_writeRun {row : Bytes} {x k : Nat} (run : Bytes) (b : Byte) (hx : x ≤ row.length)
    (hk : k < row.length) : (writeRun row x run).getD k b =
      if x ≤ k ∧ k < x + run.length then run.getD (k - x) b else row.getD k b := by
  have hprefix : (row.take x).length = x := List.length_take_of_le hx
  simp only [writeRun, List.append_assoc, List.getD_eq_getElem?_getD]
  rcases Nat.lt_or_ge k x with hbelow | hfrom
  · rw [if_neg (by omega), List.getElem?_append_left (by omega), List.getElem?_take_of_lt hbelow]
  rw [List.getElem?_append_right (by omega), hprefix]
  rcases Nat.lt_or_ge k (x + run.length) with hin | habove
  · rw [if_pos ⟨hfrom, hin⟩, List.getElem?_append_left (by rw [List.length_take]; omega),
      List.getElem?_take_of_lt (by omega)]
  · have hrun : (run.take (row.length - x)).length = run.length := by rw [List.length_take]; omega
    rw [if_neg (by omega), List.getElem?_append_right (by omega), hrun, List.getElem?_drop]
    congr 2
    omega

/-! ## Pixel formulas (R223, R224, R226): the tabled colour by comparisons -/

theorem pixFill2_eq (c0 c1 : Byte) (j : Nat) (hj : j < 16) :
    pixFill2 c0 c1 j = if j < 8 then c0 else c1 := by
  interval_cases j <;> rfl

theorem pixFill4_eq (c0 c1 c2 c3 : Byte) (j : Nat) (hj : j < 16) :
    pixFill4 c0 c1 c2 c3 j = if j < 4 then c0 else if j < 8 then c1 else if j < 12 then c2 else c3 := by
  interval_cases j <;> rfl

theorem pixFill8_eq (c0 c1 c2 c3 c4 c5 c6 c7 : Byte) (j : Nat) (hj : j < 16) :
    pixFill8 c0 c1 c2 c3 c4 c5 c6 c7 j =
      if j < 2 then c0 else if j < 4 then c1 else if j < 6 then c2 else if j < 8 then c3
      else if j < 10 then c4 else if j < 12 then c5 else if j < 14 then c6 else c7 := by
  interval_cases j <;> rfl

/-! ## The tags (R221 to R229) -/

/-- A tag whose step is `emit` of a formula writes the pixels that any formula equal to it on the 16 pixels
gives. -/
theorem writesPixels_of_emit {i : Instr} {pix formula : Nat → Byte} (htag : i.format = .scanlineTag)
    (hstep : ∀ p d, tagStep p i d = emit p pix d) (hpix : ∀ j, j < 16 → pix j = formula j) :
    WritesPixels i formula := by
  intro s hs
  refine ⟨_, exec_scanlineTag s htag, rfl, ?_⟩
  rw [hstep, emit_of_not_finished pix hs.not_finished]
  obtain ⟨hrunning, hroom, hwidth⟩ := hs
  have hx : s.dec.x ≤ s.dec.row.length := by omega
  refine ⟨rfl, hrunning, (length_writeRun _ hx).trans hwidth, fun k hk => ?_⟩
  rw [getD_writeRun _ _ hx (hwidth ▸ hk), length_pixels]
  refine ite_congr rfl (fun hin => ?_) fun _ => rfl
  rw [getD_pixels pix _ (by omega), hpix _ (by omega)]

/-- Settles O10: the bytes by `decodeTag_encode`, the pixels by `writesPixels_of_emit` for each tag's formula. -/
theorem tagsWriteSixteenPixels : Obligations.TagsWriteSixteenPixels := by
  intro c0 c1 c2 c3 c4 c5 c6 c7
  have hdecode (i : Instr) := decodeTag_encode {} (i := i) []
  exact ⟨hdecode .blank rfl rfl, hdecode (.fill1 c0) rfl rfl, hdecode (.fill2 c0 c1) rfl rfl,
    hdecode (.fill4 c0 c1 c2 c3) rfl rfl, hdecode (.fill8 c0 c1 c2 c3 c4 c5 c6 c7) rfl rfl,
    hdecode (.bmp8 c0 c1 c2) rfl rfl, hdecode (.bmp16 c0 c1 c2 c3 c4 c5) rfl rfl,
    writesPixels_of_emit (pix := pixBlank) rfl (fun _ _ => rfl) fun _ _ => rfl,
    writesPixels_of_emit (pix := pixFill1 c0) rfl (fun _ _ => rfl) fun _ _ => rfl,
    writesPixels_of_emit rfl (fun _ _ => rfl) (pixFill2_eq c0 c1),
    writesPixels_of_emit rfl (fun _ _ => rfl) (pixFill4_eq c0 c1 c2 c3),
    writesPixels_of_emit rfl (fun _ _ => rfl) (pixFill8_eq c0 c1 c2 c3 c4 c5 c6 c7),
    writesPixels_of_emit (pix := pixBmp8 c0 c1 c2) rfl (fun _ _ => rfl) fun _ _ => rfl,
    writesPixels_of_emit (pix := pixBmp16 c0 c1 c2 c3 c4 c5) rfl (fun _ _ => rfl) fun _ _ => rfl⟩

/-- Settles O11: an unknown tag by `endOfData_of_not_finished`, a decoder at its end by `tagStep_of_finished`. -/
theorem decoderStopsAtTheEnd : Obligations.DecoderStopsAtTheEnd := by
  intro s tag
  refine ⟨fun hunknown rest => ?_, fun hs => ?_, fun i htag hend => ?_⟩
  · exact decodeTag_encode {} (i := .unknownTag tag) rest rfl (decide_eq_true hunknown)
  · rw [exec_scanlineTag s rfl, tagStep_unknownTag, endOfData_of_not_finished hs.not_finished]
  · rw [exec_scanlineTag s htag, tagStep_of_finished i ((s.dec.finished_iff s.par).2 hend)]

end Sys2Proof.Machine

/-! # The frame pipeline (43_frame_pipeline.md)

A FrameDone fills the rows of its field (`storedField`, R255 to R257), which touches neither the picture nor what the
field's end writes, then composes the picture (`composite`, R258) and ends the field (`fieldEnd`, R260). A row of the
picture comes from one field line, so the picture follows from what the writes for that line do (`composeLine`). -/

namespace Sys2Proof.Machine

/-! ## Field synchronisation and the host's settings (R253, R265, R268) -/

/-- R253 as one update: only a rising edge with no pulse counted touches the pulse and the parity. -/
theorem fieldSync_eq (p : Params) (lev : Bool) (slot : Nat) (pi : Pipe) : fieldSync p lev slot pi =
    { pi with
      vsyncState := lev
      vsyncCnt := if pi.vsyncState = false ∧ lev = true ∧ pi.vsyncCnt = 0 then 1 else pi.vsyncCnt
      oddPending := if pi.vsyncState = false ∧ lev = true ∧ pi.vsyncCnt = 0 then
        decide (p.oddLo ≤ slot ∧ slot ≤ p.oddHi) else pi.oddPending } := by
  unfold fieldSync
  by_cases hsame : lev = pi.vsyncState
  · have hedge : ¬(pi.vsyncState = false ∧ lev = true ∧ pi.vsyncCnt = 0) := by
      rintro ⟨hlow, hhigh, -⟩
      rw [hsame, hlow] at hhigh
      cases hhigh
    rw [if_pos hsame, if_neg hedge, if_neg hedge, hsame]
  · have hrise : pi.vsyncState = false ∧ lev = true ∧ pi.vsyncCnt = 0 ↔ lev = true ∧ pi.vsyncCnt = 0 := by
      refine and_iff_right_of_imp fun ⟨hhigh, _⟩ => ?_
      rw [hhigh] at hsame
      exact Bool.eq_false_of_not_eq_true (Ne.symm hsame)
    simp only [if_neg hsame, hrise, ← Bool.decide_and]
    split <;> rfl

/-- Settles O35, by `fieldSync_eq`. (`fieldSync` itself is the model's function.) -/
theorem fieldSync_holds : Obligations.FieldSync := by
  intro lev slot s hs
  refine (guardedUnit_pass (fun s => s.withPipe (fieldSync s.par lev slot s.pipe))
    ((unlockedCheck_pass s).2 hs)).trans ?_
  rw [fieldSync_eq]
  rfl

theorem viewportOk_iff (v : Viewport) : viewportOk v = true ↔ v.x1 < v.x2 ∧ v.y1 < v.y2 := by
  simp [viewportOk]

/-- Settles O40: the acceptance of the clamped viewport by `viewportOk_iff`. -/
theorem hostSettings : Obligations.HostSettings := by
  intro x1 y1 x2 y2 s hs
  have hcheck := (hostCheck_pass s).2 hs
  have hcall : exec (.setViewport x1 y1 x2 y2) s = _ :=
    guarded_pass (fun s => ((setViewport x1 y1 x2 y2 s).1, .bool (setViewport x1 y1 x2 y2 s).2)) hcheck
  have hok := viewportOk_iff (clampViewport s.par ⟨x1, y1, x2, y2⟩)
  refine ⟨guardedUnit_pass (fun s => s.withPipe { s.pipe with autodetectReq := true }) hcheck, fun haccept => ?_,
    fun hreject => ?_⟩
  · rw [hcall, setViewport, if_pos (hok.2 haccept)]
    rfl
  · rw [hcall, setViewport, if_neg (mt hok.1 hreject)]
    rfl

/-! ## Filling the field's rows (R255 to R257) -/

/-- The pipeline between R257 and R258: the interlace counter stepped and the rows of the field filled. -/
def storedField (p : Params) (odd : Bool) (pi : Pipe) : Pipe :=
  storeFieldRows p odd (decodeChanged p (stepInterlace p odd pi))

theorem frameDone_eq (p : Params) (odd : Bool) (pi : Pipe) :
    frameDone p odd pi = fieldEnd p (composite p odd (storedField p odd pi)) := rfl

/-- R256 writes the decoded lines and their cache only. -/
theorem decodeChanged_frame (p : Params) (pi : Pipe) : ∃ lines cache count,
    decodeChanged p pi = { pi with decoded := lines, lastPayload := cache, decodeCount := count } := by
  refine List.foldlRecOn (motive := fun t : Pipe => ∃ lines cache count,
    t = { pi with decoded := lines, lastPayload := cache, decodeCount := count })
    _ _ ⟨pi.decoded, pi.lastPayload, pi.decodeCount, rfl⟩ ?_
  rintro _ ⟨lines, cache, count, rfl⟩ e -
  unfold decodeSlot
  split <;> exact ⟨_, _, _, rfl⟩

/-- R257 writes the field rows only. -/
theorem storeFieldRows_frame (p : Params) (q : Bool) (pi : Pipe) : ∃ even odd,
    storeFieldRows p q pi = { pi with rows0 := even, rows1 := odd } := by
  refine List.foldlRecOn (motive := fun t : Pipe => ∃ even odd, t = { pi with rows0 := even, rows1 := odd })
    _ _ ⟨pi.rows0, pi.rows1, rfl⟩ ?_
  rintro _ ⟨even, odd, rfl⟩ e -
  unfold storeFieldRow
  split
  · cases q <;> exact ⟨_, _, rfl⟩
  · exact ⟨_, _, rfl⟩

/-- What R255 to R257 leave as it was, and the interlace counter they leave (R255). -/
theorem storedField_frame (p : Params) (odd : Bool) (pi : Pipe) :
    (storedField p odd pi).interlaceCnt = (if odd then p.interlaceHold else pi.interlaceCnt - 1) ∧
    (storedField p odd pi).frameReady = pi.frameReady ∧ (storedField p odd pi).viewport = pi.viewport ∧
    (storedField p odd pi).border = pi.border ∧ (storedField p odd pi).bbox = pi.bbox ∧
    (storedField p odd pi).autodetectReq = pi.autodetectReq := by
  obtain ⟨lines, cache, count, hdecode⟩ := decodeChanged_frame p (stepInterlace p odd pi)
  obtain ⟨even, odd', hstore⟩ := storeFieldRows_frame p odd (decodeChanged p (stepInterlace p odd pi))
  rw [storedField, hstore, hdecode]
  exact ⟨rfl, rfl, rfl, rfl, rfl, rfl⟩

/-! ## Compositing (R258) -/

/-- Copying a row replaces the pixels of that row and no others. -/
theorem pixelAt_copyRow (p : Params) (dst src : Memory) (i j : Nat) {y x : Nat} (hx : x < p.outW) :
    pixelAt p (copyRow p dst i src j) y x = if y = i then pixelAt p src j x else pixelAt p dst y x := by
  unfold pixelAt copyRow
  rw [Memory.read_copyBlock]
  rcases Nat.lt_trichotomy y i with hlt | rfl | hgt
  · have hbelow : (y + 1) * p.outW ≤ i * p.outW := Nat.mul_le_mul_right _ hlt
    rw [Nat.succ_mul] at hbelow
    rw [if_neg (by omega), if_neg (by omega)]
  · rw [if_pos (by omega), if_pos rfl]
    congr 1
    omega
  · have habove : (i + 1) * p.outW ≤ y * p.outW := Nat.mul_le_mul_right _ hgt
    rw [Nat.succ_mul] at habove
    rw [if_neg (by omega), if_neg (by omega)]

/-- The parity of the field whose rows give row y of a picture of full height: its own in the interlaced mode, that
of the finished field in the doubled one. -/
def sourceParity (q : Bool) (pi : Pipe) (y : Nat) : Bool :=
  if 0 < pi.interlaceCnt then decide (y % 2 = 1) else q

theorem pixelAt_composeLine_half {p : Params} (hhalf : p.halfFrame = true) (q : Bool) (pi : Pipe) (fb : Memory)
    (i : Nat) {y x : Nat} (hx : x < p.outW) : pixelAt p (composeLine p q pi fb i) y x =
      if y = i then pixelAt p (pi.rows q) i x else pixelAt p fb y x := by
  rw [composeLine, if_pos hhalf, pixelAt_copyRow p _ _ _ _ hx]

/-- At full height field line i gives the rows 2i and 2i + 1. -/
theorem pixelAt_composeLine_full {p : Params} (hfull : p.halfFrame = false) (q : Bool) (pi : Pipe) (fb : Memory)
    (i : Nat) {y x : Nat} (hx : x < p.outW) : pixelAt p (composeLine p q pi fb i) y x =
      if y / 2 = i then pixelAt p (pi.rows (sourceParity q pi y)) i x else pixelAt p fb y x := by
  rw [composeLine, if_neg (by simp [hfull])]
  unfold sourceParity
  have hrow : y / 2 = i ↔ y = 2 * i ∨ y = 2 * i + 1 := by omega
  have heven : 2 * i % 2 = 0 := by omega
  have hodd : (2 * i + 1) % 2 = 1 := by omega
  by_cases hother : y / 2 = i
  · rw [if_pos hother]
    rcases hrow.1 hother with rfl | rfl <;> split <;> cases q <;> simp [pixelAt_copyRow p _ _ _ _ hx, heven, hodd]
  · rw [if_neg hother]
    rw [hrow, not_or] at hother
    obtain ⟨hne0, hne1⟩ := hother
    split <;> cases q <;> simp [pixelAt_copyRow p _ _ _ _ hx, hne0, hne1]

/-- Where line i alone decides pixel (y, x), a sequence of lines with i in it gives the pixel line i gives. -/
theorem pixelAt_foldl {p : Params} {compose : Memory → Nat → Memory} {y x i : Nat} {v : Byte}
    (hset : ∀ fb, pixelAt p (compose fb i) y x = v)
    (hkeep : ∀ fb j, j ≠ i → pixelAt p (compose fb j) y x = pixelAt p fb y x) (lines : List Nat) (fb : Memory)
    (hi : i ∈ lines) : pixelAt p (lines.foldl compose fb) y x = v := by
  induction lines using List.reverseRecOn with
  | nil => cases hi
  | append_singleton lines j ih =>
    rw [List.foldl_concat]
    by_cases hj : j = i
    · rw [hj, hset]
    · rw [hkeep _ _ hj]
      exact ih ((List.mem_append.1 hi).resolve_right fun h => hj (List.mem_singleton.1 h).symm)

/-- R258, half-frame mode. -/
theorem pixelAt_composite_half {p : Params} (hhalf : p.halfFrame = true) (q : Bool) (pi : Pipe) {i x : Nat}
    (hi : i < p.fieldLines) (hx : x < p.outW) :
    pixelAt p (composite p q pi).fb i x = pixelAt p (pi.rows q) i x :=
  pixelAt_foldl (fun fb => by rw [pixelAt_composeLine_half hhalf q pi fb i hx, if_pos rfl])
    (fun fb j hj => by rw [pixelAt_composeLine_half hhalf q pi fb j hx, if_neg hj.symm]) _ _ (List.mem_range.2 hi)

/-- R258, the modes of full height. -/
theorem pixelAt_composite_full {p : Params} (hfull : p.halfFrame = false) (q : Bool) (pi : Pipe) {y x : Nat}
    (hy : y / 2 < p.fieldLines) (hx : x < p.outW) :
    pixelAt p (composite p q pi).fb y x = pixelAt p (pi.rows (sourceParity q pi y)) (y / 2) x :=
  pixelAt_foldl (fun fb => by rw [pixelAt_composeLine_full hfull q pi fb (y / 2) hx, if_pos rfl])
    (fun fb j hj => by rw [pixelAt_composeLine_full hfull q pi fb j hx, if_neg hj.symm]) _ _ (List.mem_range.2 hy)

/-- R258, field line i in the interlaced mode. -/
theorem pixelAt_composite_interlaced {p : Params} (hfull : p.halfFrame = false) (q : Bool) {pi : Pipe} {i x : Nat}
    (hcnt : 0 < pi.interlaceCnt) (hi : i < p.fieldLines) (hx : x < p.outW) :
    pixelAt p (composite p q pi).fb (2 * i) x = pixelAt p (pi.rows false) i x ∧
    pixelAt p (composite p q pi).fb (2 * i + 1) x = pixelAt p (pi.rows true) i x := by
  have heven : 2 * i / 2 = i := by omega
  have hodd : (2 * i + 1) / 2 = i := by omega
  rw [pixelAt_composite_full hfull q pi (heven.symm ▸ hi) hx, pixelAt_composite_full hfull q pi (hodd.symm ▸ hi) hx,
    heven, hodd, sourceParity, sourceParity, if_pos hcnt, if_pos hcnt, decide_eq_false (by omega),
    decide_eq_true (by omega)]
  exact ⟨rfl, rfl⟩

/-- R258, field line i in the doubled mode. -/
theorem pixelAt_composite_doubled {p : Params} (hfull : p.halfFrame = false) (q : Bool) {pi : Pipe} {i x : Nat}
    (hcnt : pi.interlaceCnt = 0) (hi : i < p.fieldLines) (hx : x < p.outW) :
    pixelAt p (composite p q pi).fb (2 * i) x = pixelAt p (pi.rows q) i x ∧
    pixelAt p (composite p q pi).fb (2 * i + 1) x = pixelAt p (pi.rows q) i x := by
  have hdoubled : ¬ 0 < pi.interlaceCnt := by omega
  have heven : 2 * i / 2 = i := by omega
  have hodd : (2 * i + 1) / 2 = i := by omega
  rw [pixelAt_composite_full hfull q pi (heven.symm ▸ hi) hx, pixelAt_composite_full hfull q pi (hodd.symm ▸ hi) hx,
    heven, hodd, sourceParity, sourceParity, if_neg hdoubled, if_neg hdoubled]
  exact ⟨rfl, rfl⟩

/-! ## The field's end (R260) -/

/-- R260 as one update: a request for autodetection is used up. -/
theorem fieldEnd_eq (p : Params) (pi : Pipe) : fieldEnd p pi =
    { pi with
      slots := []
      frameReady := pi.frameReady + 1
      border := if pi.autodetectReq then (autodetect p pi).border else pi.border
      bbox := if pi.autodetectReq then (autodetect p pi).bbox else pi.bbox
      autodetectReq := false } := by
  cases hreq : pi.autodetectReq <;> simp [fieldEnd, autodetect, hreq]

/-- Settles O38: the frame by `storedField_frame` and `fieldEnd_eq`, the picture by R258's three modes. -/
theorem fieldComposite : Obligations.FieldComposite := by
  intro p odd pi
  obtain ⟨hcnt, hready, hviewport, hborder, hbox, hreq⟩ := storedField_frame p odd pi
  simp only [frameDone_eq, fieldEnd_eq]
  refine ⟨hcnt, trivial, congrArg (· + 1) hready, trivial, hviewport, fun hon => ?_, fun hoff => ?_,
    fun i x hi hx => ⟨fun hhalf => pixelAt_composite_half hhalf odd _ hi hx,
      fun hfull hinter => pixelAt_composite_interlaced hfull odd hinter hi hx,
      fun hfull hdouble => pixelAt_composite_doubled hfull odd hdouble hi hx⟩⟩
  · have hused : (composite p odd (storedField p odd pi)).autodetectReq = true := hreq.trans hon
    rw [if_pos hused, if_pos hused]
    exact ⟨rfl, rfl⟩
  · have hunused : ¬ (composite p odd (storedField p odd pi)).autodetectReq = true := by
      rw [Bool.not_eq_true]
      exact hreq.trans hoff
    rw [if_neg hunused, if_neg hunused]
    exact ⟨hborder, hbox⟩

/-! ## Autodetection (R266, R267) -/

theorem uniformRows_iff (p : Params) (fb : Memory) (n : Nat) (c : Byte) :
    uniformRows p fb n c = true ↔ ∀ y x, y < n → x < p.outW → pixelAt p fb y x = c := by
  simp only [uniformRows, List.all_eq_true, List.mem_range, beq_iff_eq]
  exact ⟨fun h y x hy hx => h y hy x hx, fun h y hy x hx => h y x hy hx⟩

theorem borderOf_eq_some_iff (p : Params) (fb : Memory) (c : Byte) : borderOf p fb = some c ↔
    c = pixelAt p fb 0 0 ∧ ∀ y x, y < p.borderLines → y < p.fbH → x < p.outW → pixelAt p fb y x = c := by
  simp only [borderOf, Option.ite_none_right_eq_some, Option.some.injEq, uniformRows_iff, lt_min_iff, and_imp]
  rw [and_comm, eq_comm]
  refine and_congr_right fun hc => ?_
  rw [hc]

theorem rowDiffers_iff (p : Params) (fb : Memory) (bg : Byte) (y : Nat) :
    rowDiffers p fb bg y = true ↔ ∃ x, x < p.outW ∧ pixelAt p fb y x ≠ bg := by
  simp [rowDiffers]

theorem colDiffers_iff (p : Params) (fb : Memory) (bg : Byte) (x : Nat) :
    colDiffers p fb bg x = true ↔ ∃ y, y < p.fbH ∧ pixelAt p fb y x ≠ bg := by
  simp [colDiffers]

theorem find?_range_least {n i : Nat} {f : Nat → Bool} (h : (List.range n).find? f = some i) :
    i < n ∧ f i = true ∧ ∀ j, f j = true → i ≤ j := by
  obtain ⟨hi, hmem, hbefore⟩ := List.find?_range_eq_some.1 h
  refine ⟨List.mem_range.1 hmem, hi, fun j hj => Nat.le_of_not_lt fun hlt => ?_⟩
  have hnot := hbefore j hlt
  rw [hj] at hnot
  cases hnot

theorem find?_reverse_range_greatest {n i : Nat} {f : Nat → Bool} (h : (List.range n).reverse.find? f = some i) :
    i < n ∧ f i = true ∧ ∀ j, j < n → f j = true → j ≤ i := by
  induction n with
  | zero => cases h
  | succ n ih =>
    rw [List.range_succ, List.reverse_append, List.reverse_singleton, List.singleton_append, List.find?_cons] at h
    cases hlast : f n with
    | true =>
      simp only [hlast, Option.some.injEq] at h
      subst h
      exact ⟨Nat.lt_succ_self _, hlast, fun j hj _ => Nat.le_of_lt_succ hj⟩
    | false =>
      simp only [hlast] at h
      obtain ⟨hlt, hi, hgreatest⟩ := ih h
      refine ⟨Nat.lt_succ_of_lt hlt, hi, fun j hj hfj => hgreatest j ?_ hfj⟩
      refine Nat.lt_of_le_of_ne (Nat.le_of_lt_succ hj) ?_
      rintro rfl
      rw [hlast] at hfj
      cases hfj

theorem boxOf_eq_some_iff (p : Params) (fb : Memory) (bg : Byte) (b : Box) : boxOf p fb bg = some b ↔
    (List.range p.fbH).find? (rowDiffers p fb bg) = some b.top ∧
    (List.range p.outW).find? (colDiffers p fb bg) = some b.left ∧
    (List.range p.fbH).reverse.find? (rowDiffers p fb bg) = some b.bottom ∧
    (List.range p.outW).reverse.find? (colDiffers p fb bg) = some b.right := by
  constructor
  · intro h
    simp only [boxOf, Option.bind_eq_bind, Option.bind_eq_some_iff, Option.some.injEq] at h
    obtain ⟨top, htop, left, hleft, bottom, hbottom, right, hright, rfl⟩ := h
    exact ⟨htop, hleft, hbottom, hright⟩
  · rintro ⟨htop, hleft, hbottom, hright⟩
    simp [boxOf, htop, hleft, hbottom, hright]

/-- A differing pixel has a row and a column that the four searches of R266 find. -/
theorem exists_boxOf {p : Params} {fb : Memory} {bg : Byte} {y x : Nat} (hy : y < p.fbH) (hx : x < p.outW)
    (hdiff : pixelAt p fb y x ≠ bg) : ∃ b, boxOf p fb bg = some b := by
  have hrow := (rowDiffers_iff p fb bg y).2 ⟨x, hx, hdiff⟩
  have hcol := (colDiffers_iff p fb bg x).2 ⟨y, hy, hdiff⟩
  have hfound {l : List Nat} {f : Nat → Bool} {j : Nat} (hj : j ∈ l) (hf : f j = true) :
      ∃ i, l.find? f = some i := Option.isSome_iff_exists.1 (List.find?_isSome.2 ⟨j, hj, hf⟩)
  obtain ⟨top, htop⟩ := hfound (List.mem_range.2 hy) hrow
  obtain ⟨left, hleft⟩ := hfound (List.mem_range.2 hx) hcol
  obtain ⟨bottom, hbottom⟩ := hfound (List.mem_reverse.2 (List.mem_range.2 hy)) hrow
  obtain ⟨right, hright⟩ := hfound (List.mem_reverse.2 (List.mem_range.2 hx)) hcol
  exact ⟨⟨top, left, bottom, right⟩, (boxOf_eq_some_iff ..).2 ⟨htop, hleft, hbottom, hright⟩⟩

theorem boxOf_eq_none_iff (p : Params) (fb : Memory) (bg : Byte) :
    boxOf p fb bg = none ↔ ∀ y x, y < p.fbH → x < p.outW → pixelAt p fb y x = bg := by
  constructor
  · intro hnone y x hy hx
    by_contra hdiff
    obtain ⟨b, hb⟩ := exists_boxOf hy hx hdiff
    rw [hnone] at hb
    cases hb
  · intro hsame
    rw [Option.eq_none_iff_forall_ne_some]
    intro b hb
    obtain ⟨htop, -, -, -⟩ := (boxOf_eq_some_iff ..).1 hb
    obtain ⟨hlt, hrow, -⟩ := find?_range_least htop
    obtain ⟨x, hx, hdiff⟩ := (rowDiffers_iff ..).1 hrow
    exact hdiff (hsame _ _ hlt hx)

/-- Settles O39: the border by `borderOf_eq_some_iff`, the box by what its four searches find. -/
theorem autodetectBox : Obligations.AutodetectBox := by
  intro p pi
  refine ⟨borderOf_eq_some_iff p pi.fb, boxOf_eq_none_iff p pi.fb _, fun b hb => ?_, rfl⟩
  obtain ⟨htop, hleft, hbottom, hright⟩ := (boxOf_eq_some_iff ..).1 hb
  obtain ⟨htopH, htopRow, hleastRow⟩ := find?_range_least htop
  obtain ⟨hleftW, hleftCol, hleastCol⟩ := find?_range_least hleft
  obtain ⟨hbottomH, hbottomRow, hgreatestRow⟩ := find?_reverse_range_greatest hbottom
  obtain ⟨hrightW, hrightCol, hgreatestCol⟩ := find?_reverse_range_greatest hright
  refine ⟨fun y x hy hx hdiff => ?_, ?_, ?_, ?_, ?_⟩
  · have hrow := (rowDiffers_iff p pi.fb _ y).2 ⟨x, hx, hdiff⟩
    have hcol := (colDiffers_iff p pi.fb _ x).2 ⟨y, hy, hdiff⟩
    exact ⟨hleastRow y hrow, hgreatestRow y hy hrow, hleastCol x hcol, hgreatestCol x hx hcol⟩
  · obtain ⟨x, hx, hdiff⟩ := (rowDiffers_iff ..).1 htopRow
    exact ⟨x, hx, htopH, hdiff⟩
  · obtain ⟨x, hx, hdiff⟩ := (rowDiffers_iff ..).1 hbottomRow
    exact ⟨x, hx, hbottomH, hdiff⟩
  · obtain ⟨y, hy, hdiff⟩ := (colDiffers_iff ..).1 hleftCol
    exact ⟨y, hy, hleftW, hdiff⟩
  · obtain ⟨y, hy, hdiff⟩ := (colDiffers_iff ..).1 hrightCol
    exact ⟨y, hy, hrightW, hdiff⟩

end Sys2Proof.Machine

/-! # The commands (44_sync_commands.md)

A command the machine context applies goes through one lemma, `exec_command`, which reduces the instruction to
`applyCommand`. The stops of the demo (R346, R350) and the change of a key (R300, R301) are each one equation of
states, so that a command's frame can be read off. -/

namespace Sys2Proof.Machine

/-! ## Applying a command (R293) -/

/-- A command that is let pass gives the state `applyCommand` gives and returns nothing. -/
theorem exec_command (c : Command) {s t : State} (hs : s.MachineFree) (happly : applyCommand s c = t) :
    exec c.toInstr s = .next { t with result := .unit } := by
  subst happly
  have hcheck := (unlockedCheck_pass s).2 hs
  cases c <;> exact guardedUnit_pass _ hcheck

/-! ## The demo stops (R346, R350) -/

theorem stopIfRecording_eq (s : State) : stopIfRecording s = { s with demo := s.demo.recordingStopped } := by
  rcases stopIfRecording_cases s with ⟨hstop, hmode⟩ | ⟨hmode, hstop⟩
  · rw [hstop, Demo.recordingStopped, if_neg hmode]
  · rw [hstop, Demo.recordingStopped, if_pos hmode]
    rfl

theorem stopIfPlaying_eq (s : State) : stopIfPlaying s = { s with
    keys := if s.demo.mode = .playing then 0 else s.keys
    demo := if s.demo.mode = .playing then { s.demo with mode := .idle, lastError := none } else s.demo } := by
  rcases stopIfPlaying_cases s with ⟨hstop, hmode⟩ | ⟨hmode, hstop⟩
  · rw [hstop, if_neg hmode, if_neg hmode]
  · rw [hstop, if_pos hmode, if_pos hmode]
    rfl

theorem Demo.mode_recordingStopped_eq_playing_iff (d : Demo) :
    d.recordingStopped.mode = .playing ↔ d.mode = .playing := by
  unfold Demo.recordingStopped
  split
  · next hmode => simp [hmode]
  · exact Iff.rfl

/-- Both stops: playback and recording exclude each other, so the order does not matter and at most one of them acts. -/
theorem stopIfPlaying_stopIfRecording (s : State) : stopIfPlaying (stopIfRecording s) = { s with
    keys := if s.demo.mode = .playing then 0 else s.keys
    demo := s.demo.bothStopped } := by
  simp only [stopIfRecording_eq, stopIfPlaying_eq, Demo.mode_recordingStopped_eq_playing_iff]
  by_cases hmode : s.demo.mode = .playing
  · simp [Demo.bothStopped, Demo.recordingStopped, hmode]
  · simp [Demo.bothStopped, hmode]

theorem stopIfRecording_stopIfPlaying (s : State) : stopIfRecording (stopIfPlaying s) = { s with
    keys := if s.demo.mode = .playing then 0 else s.keys
    demo := s.demo.bothStopped } := by
  simp only [stopIfRecording_eq, stopIfPlaying_eq]
  by_cases hmode : s.demo.mode = .playing
  · simp [Demo.bothStopped, Demo.recordingStopped, hmode]
  · simp [Demo.bothStopped, hmode]

/-- R299 and R420 as one update. -/
theorem cmdReset_eq (s : State) : cmdReset s = { s with
    chip := Chip.reset, keys := 0, demo := s.demo.bothStopped } := by
  rw [cmdReset, stopIfPlaying_stopIfRecording]
  rfl

/-- Settles O19, by `cmdReset_eq`. -/
theorem resetCommand : Obligations.ResetCommand := fun s hs => exec_command .reset hs (cmdReset_eq s)

/-- Settles O23, by the equations of the two stops. -/
theorem demoStopCommands : Obligations.DemoStopCommands := by
  intro s hs
  exact ⟨exec_command .demoRecordStop hs (stopIfRecording_eq s), exec_command .demoPlayStop hs (stopIfPlaying_eq s)⟩

/-! ## The commands handed over and the pause (R302 to R304, R309) -/

/-- Settles O21: `applyCommand` gives each of the four states by its definition. -/
theorem forwardedAndPause : Obligations.ForwardedAndPause := by
  intro v dx dy op b s hs
  exact ⟨exec_command (.setVolume v) hs rfl, exec_command (.tape op) hs rfl, exec_command (.mouseDelta dx dy) hs rfl,
    exec_command (.setPaused b) hs rfl⟩

/-! ## Keys (R33, R300, R301, R344) -/

/-- Setting a key moves its own bit only. -/
theorem getLsbD_setKey (keys : Keys) (k : BitVec 7) (b : Bool) {j : Nat} (hj : j < 128) :
    (setKey keys k b).getLsbD j = if j = k.toNat then b else keys.getLsbD j := by
  have hbit : (1#128 <<< k.toNat).getLsbD j = decide (j = k.toNat) := by
    refine (BitVec.getLsbD_twoPow k.toNat j).trans ?_
    rw [decide_eq_true k.isLt, Bool.true_and]
    exact decide_eq_decide.2 eq_comm
  cases b
  · simp only [setKey, Bool.false_eq_true, reduceIte, BitVec.getLsbD_and, BitVec.getLsbD_not, hbit, hj, decide_true,
      Bool.true_and]
    split <;> simp only [*, decide_true, decide_false, Bool.not_true, Bool.not_false, Bool.and_false, Bool.and_true]
  · simp only [setKey, reduceIte, BitVec.getLsbD_or, hbit]
    split <;> simp only [*, decide_true, decide_false, Bool.or_true, Bool.or_false]

/-- Setting a key to what it already is changes nothing. -/
theorem setKey_of_getLsbD_eq {keys : Keys} {k : BitVec 7} {b : Bool} (h : keys.getLsbD k.toNat = b) :
    setKey keys k b = keys := by
  refine BitVec.eq_of_getLsbD_eq fun j hj => ?_
  rw [getLsbD_setKey _ _ _ hj]
  split
  · next hkey => rw [hkey, h]
  · rfl

/-- R300 and R301 as one update: no change during playback, a record of a real change while recording (R344). -/
theorem cmdKey_eq (down : Bool) (k : BitVec 7) (s : State) : cmdKey down k s = { s with
    keys := if s.demo.mode = .playing then s.keys else setKey s.keys k down
    demo := if s.demo.mode = .recording ∧ s.keys.getLsbD k.toNat = !down then
      (recordKey (if down then 0x01#8 else 0x02#8) k s).demo else s.demo } := by
  by_cases hplay : s.demo.mode = .playing
  · rw [cmdKey, if_pos hplay, if_pos hplay, if_neg (by simp [hplay])]
  by_cases hsame : s.keys.getLsbD k.toNat = down
  · rw [cmdKey, if_neg hplay, if_neg hplay, keyPressed, if_pos hsame, setKey_of_getLsbD_eq hsame,
      if_neg (by simp [hsame])]
  have hreal : s.keys.getLsbD k.toNat = !down := Bool.eq_not.2 hsame
  rw [cmdKey, if_neg hplay, if_neg hplay, keyPressed, if_neg hsame]
  by_cases hrec : s.demo.mode = .recording
  · rw [if_pos (by exact hrec), if_pos (And.intro hrec hreal)]
    rfl
  · rw [if_neg (by exact hrec), if_neg fun h => hrec h.1]
    rfl

/-- The keys after a key command: key `k` outside playback, every other key never. -/
theorem getLsbD_setKey_unless_playing (mode : DemoMode) (keys : Keys) (k : BitVec 7) (b : Bool) {j : Nat}
    (hj : j < 128) : (if mode = .playing then keys else setKey keys k b).getLsbD j =
      if j = k.toNat ∧ mode ≠ .playing then b else keys.getLsbD j := by
  by_cases hplay : mode = .playing
  · rw [if_pos hplay, if_neg fun h => h.2 hplay]
  · rw [if_neg hplay, getLsbD_setKey keys k b hj]
    simp only [and_iff_left hplay]

/-- Settles O20: the frame and the record by `cmdKey_eq`, the keys by `getLsbD_setKey_unless_playing`. -/
theorem keyCommands : Obligations.KeyCommands := by
  intro k s hs
  refine ⟨⟨_, exec_command (.keyDown k) hs (cmdKey_eq true k s), rfl, fun j hj => ?_, rfl⟩,
    ⟨_, exec_command (.keyUp k) hs (cmdKey_eq false k s), rfl, fun j hj => ?_, rfl⟩⟩
  · refine (getLsbD_setKey_unless_playing _ _ k true hj).trans ?_
    split <;> simp [*]
  · refine (getLsbD_setKey_unless_playing _ _ k false hj).trans ?_
    split <;> simp [*]

/-! ## Starting a recording (R305, R343) -/

/-- The offsets of R373 end at 111. -/
theorem length_encodeChip (ch : Chip) : (encodeChip ch).length = 111 := by
  unfold encodeChip codeBytes boolBytes volBytes selBytes
  simp only [List.length_append, be16_length, be32_length, List.length_cons, List.length_nil]

theorem length_chunkBytes (tag : Word) (payload : Bytes) : (chunkBytes tag payload).length = payload.length + 12 := by
  simp only [chunkBytes, encodeChunk, List.length_append, be32_length]
  omega

theorem endBytes_eq : endBytes = List.replicate 8 0#8 := rfl

theorem Params.minSnapshot_le {p : Params} (hvalid : p.valid = true) : 135 ≤ p.snapshotSize := by
  simp only [Params.valid, Bool.and_eq_true, decide_eq_true_eq] at hvalid
  exact hvalid.2

/-- A snapshot of the chip alone has 135 bytes of content, which R10 makes fit. -/
theorem saveSnapshotCore_eq {s : State} (hvalid : s.par.valid = true) : saveSnapshotCore s =
    some (be32 s.par.snapshotVersion ++ chunkBytes Config.tagChip (encodeChip s.chip) ++ List.replicate 8 0#8 ++
      List.replicate (s.par.snapshotSize - 135) 0#8) := by
  have hfits := Params.minSnapshot_le hvalid
  have hlength : (be32 s.par.snapshotVersion ++ chunkBytes Config.tagChip (encodeChip s.chip) ++
      List.replicate 8 0#8).length = 135 := by
    simp only [List.length_append, be32_length, length_chunkBytes, length_encodeChip, List.length_replicate]
  rw [saveSnapshotCore, saveBlob, demoChunk, List.append_nil, endBytes_eq, padBlob, hlength, if_neg (by omega)]

theorem startRecording_eq {s : State} (hvalid : s.par.valid = true) : startRecording s = { s with
    keys := 0
    demo := { s.demo with
      startSnapshot := saveSnapshotCore s
      recBuf := be32 s.par.demoVersion
      recTicks := 0
      lastError := none
      mode := .recording } } := by
  rw [startRecording, saveSnapshotCore_eq hvalid]
  rfl

/-- Settles O22: the stops leave the chip and the parameters, and `startRecording_eq` overwrites what a stop of
playback changes. -/
theorem recordStart : Obligations.RecordStart := by
  intro s hvalid hs
  refine exec_command .demoRecordStart hs (t := { s with keys := 0, demo := _ }) ?_
  rw [applyCommand, cmdRecordStart, stopIfRecording_stopIfPlaying, startRecording_eq, saveSnapshotCore_eq]
  · by_cases hmode : s.demo.mode = .playing
    · simp [Demo.bothStopped, Demo.recordingStopped, hmode, chunkBytes]
    · simp [Demo.bothStopped, hmode, chunkBytes]
  · exact hvalid
  · exact hvalid

/-! ## The host's queue (R290 to R292) -/

/-- Settles O41: `enqueue_cases` has one case for each of the three claims. -/
theorem enqueueCommand : Obligations.EnqueueCommand := by
  intro c s hs
  have hcall : exec (.enqueue c) s = .next ((enqueue c s).1.withResult (.bool (enqueue c s).2)) :=
    guarded_pass (fun s => ((enqueue c s).1, .bool (enqueue c s).2)) ((hostCheck_pass s).2 hs)
  rw [hcall]
  rcases enqueue_cases c s with ⟨hshut, hresult⟩ | ⟨hopen, hfull, hresult⟩ | ⟨hopen, hroom, hresult⟩ <;> rw [hresult]
  · exact ⟨fun _ => rfl, by simp [hshut], by simp [hshut]⟩
  · exact ⟨by simp [hopen], fun _ _ => rfl, fun _ hroom => absurd hfull (by omega)⟩
  · exact ⟨by simp [hopen], fun _ hfull => absurd hroom (by omega), fun _ _ => rfl⟩

end Sys2Proof.Machine

/-! # The varint codec and the demo blob (45_demo_log.md R332, R333, R354; 46_snapshot.md R382)

A varint is continuation bytes and one last byte. What the decoder does with continuation bytes, whichever they
are, is one lemma, `varintGo_append_continuing`; the encoder's form is the other, `varintEncode_eq_append`. A demo
blob cuts the start snapshot in front of its end chunk: `beforeEnd_save` says what stands in front of it. -/

namespace Sys2Proof.Machine

/-! ## The bytes of a varint (R106) -/

/-- The number that the low seven bits of `bs` continue `d` to, most significant group first. -/
def varintValue (d : Nat) (bs : Bytes) : Nat := bs.foldl (fun d b => d * 128 + (b &&& 0x7F#8).toNat) d

@[simp] theorem varintValue_nil (d : Nat) : varintValue d [] = d := rfl

@[simp] theorem varintValue_cons (d : Nat) (b : Byte) (bs : Bytes) :
    varintValue d (b :: bs) = varintValue (d * 128 + (b &&& 0x7F#8).toNat) bs := rfl

theorem varintValue_append (d : Nat) (bs cs : Bytes) : varintValue d (bs ++ cs) = varintValue (varintValue d bs) cs :=
  List.foldl_append

/-- Leading 80 bytes are zeros in front of the number. -/
theorem varintValue_zero_replicate (n : Nat) : varintValue 0 (List.replicate n 0x80#8) = 0 := by
  induction n with
  | zero => rfl
  | succ n ih => exact ih

/-- The low seven bits of a group's byte are the group. -/
theorem toNat_lastByte_and_7F (d : Nat) : (BitVec.ofNat 8 (d % 128) &&& 0x7F#8).toNat = d % 128 := by
  have hmask := Nat.and_two_pow_sub_one_eq_mod (d % 128) 7
  rw [BitVec.toNat_and, BitVec.toNat_ofNat, Nat.mod_eq_of_lt (by omega)]
  exact hmask.trans (by omega)

/-- A group's byte that is not the last one has bit 7 set, which the decoder masks out. -/
theorem toNat_continuation_and_7F (d : Nat) :
    ((0x80#8 ||| BitVec.ofNat 8 (d % 128)) &&& 0x7F#8).toNat = d % 128 := by
  have hmask : (0x80#8 ||| BitVec.ofNat 8 (d % 128)) &&& 0x7F#8 = BitVec.ofNat 8 (d % 128) &&& 0x7F#8 := by
    rw [BitVec.and_comm, BitVec.and_or_distrib_left, BitVec.and_comm, BitVec.and_comm (0x7F#8)]
    exact BitVec.zero_or
  rw [hmask, toNat_lastByte_and_7F]

theorem getLsbD_continuation (x : Byte) : (0x80#8 ||| x).getLsbD 7 = true := by
  rw [BitVec.getLsbD_or]
  rfl

theorem getLsbD_lastByte (d : Nat) : (BitVec.ofNat 8 (d % 128)).getLsbD 7 = false := by
  have hlt : d % 128 < 2 ^ 7 := Nat.mod_lt d (by decide)
  rw [BitVec.getLsbD_ofNat, Nat.testBit_lt_two_pow hlt, Bool.and_false]

/-! ## The decoder (R333) -/

theorem varintGo_last {b : Byte} (hlast : b.getLsbD 7 = false) (left d : Nat) (rest : Bytes) :
    varintGo left d (b :: rest) = .ok (d * 128 + (b &&& 0x7F#8).toNat, rest) := by
  cases left <;> exact if_pos hlast

theorem varintGo_continuing_zero {b : Byte} (hb : b.getLsbD 7 = true) (d : Nat) (rest : Bytes) :
    varintGo 0 d (b :: rest) = .error .varintTooLong := if_neg (by rw [hb]; decide)

theorem varintGo_continuing_succ {b : Byte} (hb : b.getLsbD 7 = true) (left d : Nat) (rest : Bytes) :
    varintGo (left + 1) d (b :: rest) = varintGo left (d * 128 + (b &&& 0x7F#8).toNat) rest :=
  if_neg (by rw [hb]; decide)

/-- Bytes that all promise another either leave the decoder behind them with their value, or are too many. -/
theorem varintGo_append_continuing {bs : Bytes} (hbs : ∀ b ∈ bs, b.getLsbD 7 = true) (left d : Nat) (rest : Bytes) :
    varintGo left d (bs ++ rest) =
      if bs.length ≤ left then varintGo (left - bs.length) (varintValue d bs) rest else .error .varintTooLong := by
  induction bs generalizing left d with
  | nil => rfl
  | cons b bs ih =>
    obtain ⟨hb, hbs⟩ := List.forall_mem_cons.1 hbs
    cases left with
    | zero => exact varintGo_continuing_zero hb d (bs ++ rest)
    | succ left =>
      rw [List.cons_append, varintGo_continuing_succ hb, ih hbs, varintValue_cons]
      simp only [List.length_cons, Nat.add_le_add_iff_right, Nat.add_sub_add_right]

/-! ## The encoder (R332) -/

/-- The groups in front of `acc` promise another, hold `d`, and are no more than `d` needs. -/
theorem varintGroups_eq_append {fuel d : Nat} (hfuel : d ≤ fuel) (acc : Bytes) :
    ∃ bs, varintGroups fuel d acc = bs ++ acc ∧ (∀ b ∈ bs, b.getLsbD 7 = true) ∧ varintValue 0 bs = d ∧
      ∀ k, d < 128 ^ k → bs.length ≤ k := by
  induction fuel generalizing d acc with
  | zero => exact ⟨[], rfl, List.forall_mem_nil _, (Nat.le_zero.1 hfuel).symm, fun k _ => Nat.zero_le k⟩
  | succ fuel ih =>
    rw [varintGroups]
    split
    · next hzero => exact ⟨[], rfl, List.forall_mem_nil _, hzero.symm, fun k _ => Nat.zero_le k⟩
    · obtain ⟨bs, heq, hbs, hvalue, hlength⟩ :=
        ih (d := d / 128) (by omega) ((0x80#8 ||| BitVec.ofNat 8 (d % 128)) :: acc)
      refine ⟨bs ++ [0x80#8 ||| BitVec.ofNat 8 (d % 128)], ?_, ?_, ?_, fun k hk => ?_⟩
      · rw [heq, List.append_assoc, List.singleton_append]
      · exact List.forall_mem_append.2 ⟨hbs, List.forall_mem_singleton.2 (getLsbD_continuation _)⟩
      · rw [varintValue_append, hvalue, varintValue_cons, varintValue_nil, toNat_continuation_and_7F]
        omega
      · cases k with
        | zero => rw [Nat.pow_zero] at hk; omega
        | succ k =>
          rw [List.length_append, List.length_singleton, Nat.add_le_add_iff_right]
          exact hlength k (Nat.div_lt_of_lt_mul (by rwa [Nat.pow_succ'] at hk))

/-- A varint is continuation bytes with the number's upper groups, then one byte with the lowest. -/
theorem varintEncode_eq_append (d : Nat) :
    ∃ bs, varintEncode d = bs ++ [BitVec.ofNat 8 (d % 128)] ∧ (∀ b ∈ bs, b.getLsbD 7 = true) ∧
      varintValue 0 bs = d / 128 ∧ ∀ k, d / 128 < 128 ^ k → bs.length ≤ k :=
  varintGroups_eq_append (Nat.le_refl _) _

/-- "no delta is longer than `P_VARINT_MAX` = 9 bytes" (R333). -/
theorem length_varintEncode_le {d : Nat} (hd : d < 2 ^ 63) : (varintEncode d).length ≤ 9 := by
  obtain ⟨bs, heq, -, -, hlength⟩ := varintEncode_eq_append d
  have hbs := hlength 8 (by omega)
  rw [heq, List.length_append, List.length_singleton]
  omega

/-- An encoding decodes behind leading 80 bytes while all of it is at most nine bytes. -/
theorem varintDecode_replicate_append_encode {n d : Nat} (hn : n + (varintEncode d).length ≤ 9) (rest : Bytes) :
    varintDecode (List.replicate n 0x80#8 ++ varintEncode d ++ rest) = .ok (d, rest) := by
  obtain ⟨bs, heq, hbs, hvalue, -⟩ := varintEncode_eq_append d
  have hcontinuing : ∀ b ∈ List.replicate n 0x80#8 ++ bs, b.getLsbD 7 = true :=
    List.forall_mem_append.2 ⟨fun b hb => List.eq_of_mem_replicate hb ▸ rfl, hbs⟩
  have hlength : (List.replicate n 0x80#8 ++ bs).length ≤ Config.varintMax - 1 := by
    rw [heq, List.length_append, List.length_singleton] at hn
    rw [List.length_append, List.length_replicate, Config.varintMax]
    omega
  rw [heq, ← List.append_assoc, List.append_assoc, varintDecode, varintGo_append_continuing hcontinuing,
    if_pos hlength, varintValue_append, varintValue_zero_replicate, hvalue, List.singleton_append,
    varintGo_last (getLsbD_lastByte d), toNat_lastByte_and_7F, Nat.div_add_mod']

/-- Settles O15: both faults are `varintGo_append_continuing`, both round trips
`varintDecode_replicate_append_encode`. -/
theorem varintCodec : Obligations.VarintCodec := by
  refine ⟨fun d rest hd => ?_, fun bs rest hbs hlength => ?_, fun bs hbs hlength => ?_,
    fun n d rest hn => varintDecode_replicate_append_encode hn rest⟩
  · exact varintDecode_replicate_append_encode (n := 0) (by rw [Nat.zero_add]; exact length_varintEncode_le hd) rest
  · rw [varintDecode, varintGo_append_continuing hbs, if_neg (by rw [hlength]; decide)]
  · have hgo := varintGo_append_continuing hbs (Config.varintMax - 1) 0 []
    rw [List.append_nil, if_pos (by rw [Config.varintMax]; omega)] at hgo
    exact hgo.trans (by rw [varintGo])

/-! ## The chunks of a save (R110, R382) -/

/-- A chip chunk whose length fits its four bytes reads back with what stands behind it. -/
theorem decodeChunk_chip {payload : Bytes} (hlength : payload.length < 2 ^ 32) (crc : Word) (rest : Bytes) :
    decodeChunk (encodeChunk Config.tagChip payload crc ++ rest) = some (.chunkChip payload crc, rest) := by
  have hn : (BitVec.ofNat 32 payload.length).toNat = payload.length := by
    rw [BitVec.toNat_ofNat, Nat.mod_eq_of_lt hlength]
  simp only [decodeChunk, encodeChunk, List.append_assoc, takeBE32_be32, Option.bind_eq_bind, Option.bind_some, hn,
    takeBytes_append]
  rfl

/-- The end chunk takes everything behind it (R379). -/
theorem decodeChunk_end (rest : Bytes) : decodeChunk (endBytes ++ rest) = some (.chunkEnd 0#32 rest, []) := by
  simp only [decodeChunk, endBytes, List.append_assoc, takeBE32_be32, Option.bind_eq_bind, Option.bind_some,
    if_pos]

/-- In front of a save's end chunk stands the chip chunk; two steps find it. -/
theorem beforeEnd_save (fuel : Nat) (ch : Chip) (padding : Bytes) :
    beforeEnd (fuel + 2) (chunkBytes Config.tagChip (encodeChip ch) ++ (endBytes ++ padding)) =
      some (chunkBytes Config.tagChip (encodeChip ch)) := by
  have hchip := decodeChunk_chip (payload := encodeChip ch) (by rw [length_encodeChip]; decide)
    (crc32 (encodeChip ch)) (endBytes ++ padding)
  have hend : beforeEnd (fuel + 1) (endBytes ++ padding) = some [] := by rw [beforeEnd, decodeChunk_end]
  rw [beforeEnd, chunkBytes, hchip]
  simp only [hend, Option.map_some, List.append_nil, List.length_append, Nat.add_sub_cancel, List.take_left']

/-! ## Saving under the lock (R382, R354) -/

/-- R382's two cases the way the statement asks for them. -/
theorem padBlob_eq (p : Params) (content : Bytes) : padBlob p content =
    if content.length ≤ p.snapshotSize then
      some (content ++ List.replicate (p.snapshotSize - content.length) 0#8) else none := by
  rw [padBlob, ← ite_not]
  simp only [Nat.not_lt]

/-- What `padBlob` gives is the content with its padding. -/
theorem eq_append_of_padBlob {p : Params} {content b : Bytes} (h : padBlob p content = some b) :
    ∃ padding, b = content ++ padding := by
  rw [padBlob] at h
  split at h
  · cases h
  · exact ⟨_, (Option.some.inj h).symm⟩

/-- The demo chunk put into a save without one makes the save with that log. -/
theorem withDemoChunk_save {p : Params} {ch : Chip} {b : Bytes} (hsave : saveBlob p ch none = some b) (log : Bytes) :
    withDemoChunk p b log = saveBlob p ch (some log) := by
  obtain ⟨padding, rfl⟩ := eq_append_of_padBlob hsave
  have hblob : be32 p.snapshotVersion ++ chunkBytes Config.tagChip (encodeChip ch) ++ demoChunk none ++ endBytes ++
      padding = be32 p.snapshotVersion ++ (chunkBytes Config.tagChip (encodeChip ch) ++ (endBytes ++ padding)) := by
    simp only [demoChunk, List.append_nil, List.append_assoc]
  rw [hblob, withDemoChunk, List.drop_left' (be32_length _), List.take_left' (be32_length _), List.length_append,
    be32_length, show ∀ n, 4 + n + 1 = n + 3 + 2 by omega, beforeEnd_save]
  rfl

theorem exec_saveSnapshot {s : State} (hs : s.HostHolding) :
    exec .saveSnapshot s = .next { s with result := .blob (saveSnapshot s) } :=
  guarded_pass (fun s => (s, .blob (saveSnapshot s))) ((lockedCheck_pass s).2 hs)

theorem exec_demoBlob {s : State} (hs : s.HostHolding) :
    exec .demoBlob s = .next { s with result := .blob (demoBlob s) } :=
  guarded_pass (fun s => (s, .blob (demoBlob s))) ((lockedCheck_pass s).2 hs)

theorem demoBlob_eq_none {s : State} (h : s.demo.startSnapshot = none ∨ s.demo.committed = none) :
    demoBlob s = none := by
  rw [demoBlob]
  rcases h with hstart | hlog
  · rw [hstart]
  · rw [hlog]
    cases s.demo.startSnapshot <;> rfl

/-- Settles O47: the save by `padBlob_eq`, the demo blob of a start snapshot by `withDemoChunk_save`. -/
theorem snapshotHostCalls : Obligations.SnapshotHostCalls := by
  intro s hs
  refine ⟨fun content hcontent => ?_, fun hnone => ?_, fun ch b log hsave hstart hlog => ?_⟩
  · have hbytes : content = be32 s.par.snapshotVersion ++ chunkBytes Config.tagChip (encodeChip s.chip) ++
        demoChunk s.demo.committed ++ endBytes := by
      rw [hcontent, endBytes_eq]
      cases s.demo.committed <;> rfl
    rw [exec_saveSnapshot hs, saveSnapshot, saveBlob, ← hbytes, padBlob_eq]
  · rw [exec_demoBlob hs, demoBlob_eq_none hnone]
  · have hblob : demoBlob s = withDemoChunk s.par b log := by rw [demoBlob, hstart, hlog]
    rw [exec_demoBlob hs, hblob, withDemoChunk_save hsave]

end Sys2Proof.Machine

/-! # Loading a snapshot (46_snapshot.md R383, R384)

The loop of R383 reads a run of encoded chunks as their fold (`runChunks_flatMap_append`), so that which fault a
blob has turns on what stands behind its payload chunks: one lemma for each way `decodeChunk` cuts a tail. -/

namespace Sys2Proof.Machine

/-! ## What `decodeChunk` makes of the bytes in front (R110, R370) -/

/-- The chunk of a tag other than the end chunk's (R111). -/
def payloadChunk (tag : Word) (payload : Bytes) (crc : Word) : Instr :=
  if tag = Config.tagChip then .chunkChip payload crc
  else if tag = Config.tagDemo then .chunkDemo payload crc
  else if tag = Config.tagMach then .chunkMach payload crc
  else .chunkUnknown tag payload crc

theorem takeBE32_of_length_lt {bs : Bytes} (hlength : bs.length < 4) : takeBE32 bs = none := by
  match bs, hlength with
  | [], _ | [_], _ | [_, _], _ | [_, _, _], _ => rfl

theorem length_of_takeBE32 {bs rest : Bytes} {v : Word} (h : takeBE32 bs = some (v, rest)) :
    bs.length = rest.length + 4 := by
  match bs with
  | [] | [_] | [_, _] | [_, _, _] => cases h
  | _ :: _ :: _ :: _ :: _ => cases h; rfl

/-- Fewer than eight bytes hold no tag and length. -/
theorem decodeChunk_of_length_lt {bs : Bytes} (hlength : bs.length < 8) : decodeChunk bs = none := by
  rw [decodeChunk]
  cases htag : takeBE32 bs with
  | none => rfl
  | some r =>
    have hrest := length_of_takeBE32 htag
    simp only [Option.bind_eq_bind, Option.bind_some, takeBE32_of_length_lt (show r.2.length < 4 by omega),
      Option.bind_none]

/-- A payload and checksum longer than what is left. -/
theorem decodeChunk_of_body_lt {tag n : Word} {body : Bytes} (htag : tag ≠ Config.tagEnd)
    (hlength : body.length < n.toNat + 4) : decodeChunk (be32 tag ++ be32 n ++ body) = none := by
  simp only [decodeChunk, List.append_assoc, takeBE32_be32, Option.bind_eq_bind, Option.bind_some, if_neg htag]
  by_cases hpayload : n.toNat ≤ body.length
  · have hcrc : takeBE32 (body.drop n.toNat) = none :=
      takeBE32_of_length_lt (by rw [List.length_drop]; omega)
    simp only [takeBytes, if_pos hpayload, Option.bind_some, hcrc, Option.bind_none]
  · simp only [takeBytes, if_neg hpayload, Option.bind_none]

/-- The end chunk takes everything behind its length, whatever that is. -/
theorem decodeChunk_tagEnd (n : Word) (body : Bytes) :
    decodeChunk (be32 Config.tagEnd ++ be32 n ++ body) = some (.chunkEnd n body, []) := by
  simp only [decodeChunk, List.append_assoc, takeBE32_be32, Option.bind_eq_bind, Option.bind_some, if_pos]

theorem decodeChunk_encodeChunk {tag : Word} {payload : Bytes} (htag : tag ≠ Config.tagEnd)
    (hlength : payload.length < 2 ^ 32) (crc : Word) (rest : Bytes) :
    decodeChunk (encodeChunk tag payload crc ++ rest) = some (payloadChunk tag payload crc, rest) := by
  have hn : (BitVec.ofNat 32 payload.length).toNat = payload.length := by
    rw [BitVec.toNat_ofNat, Nat.mod_eq_of_lt hlength]
  simp only [decodeChunk, encodeChunk, List.append_assoc, takeBE32_be32, Option.bind_eq_bind, Option.bind_some, hn,
    takeBytes_append, if_neg htag, payloadChunk]
  split_ifs <;> rfl

/-- A chunk that may stand in front of the end chunk. -/
abbrev IsPayloadChunk (p : Params) (i : Instr) : Prop :=
  i.format = .snapshotChunk ∧ WellFormed p i ∧ ∀ n trailing, i ≠ .chunkEnd n trailing

/-- Such a chunk is a payload of a tag with its checksum (R110, R111). -/
theorem IsPayloadChunk.exists_encode_eq {p : Params} {i : Instr} (hi : IsPayloadChunk p i) :
    ∃ tag payload crc, tag ≠ Config.tagEnd ∧ payload.length < 2 ^ 32 ∧ encode p i = encodeChunk tag payload crc ∧
      i = payloadChunk tag payload crc := by
  obtain ⟨hformat, hwf, hend⟩ := hi
  cases i with
  | chunkChip payload crc => exact ⟨Config.tagChip, payload, crc, by decide, of_decide_eq_true hwf, rfl, rfl⟩
  | chunkDemo payload crc => exact ⟨Config.tagDemo, payload, crc, by decide, of_decide_eq_true hwf, rfl, rfl⟩
  | chunkMach payload crc => exact ⟨Config.tagMach, payload, crc, by decide, of_decide_eq_true hwf, rfl, rfl⟩
  | chunkUnknown tag payload crc =>
    simp only [WellFormed, Instr.wf, Bool.and_eq_true, decide_eq_true_eq, bne_iff_ne] at hwf
    obtain ⟨⟨⟨⟨hlength, hchip⟩, hdemo⟩, hmach⟩, htag⟩ := hwf
    exact ⟨tag, payload, crc, htag, hlength, rfl, by
      rw [payloadChunk, if_neg hchip, if_neg hdemo, if_neg hmach]⟩
  | chunkEnd n trailing => exact absurd rfl (hend n trailing)
  | _ => cases hformat

/-! ## The loop over the chunks (R383) -/

theorem runChunks_of_not_running {l : Loader} (hl : l.status ≠ .running) (fuel : Nat) (bs : Bytes) :
    runChunks fuel bs l = l := by
  cases fuel with
  | zero => rfl
  | succ fuel => exact if_neg hl

/-- One turn of the loop where the bytes end inside a chunk. -/
theorem runChunks_cut {l : Loader} (hl : l.status = .running) {bs : Bytes} (hcut : decodeChunk bs = none)
    (fuel : Nat) : runChunks (fuel + 1) bs l = l.fail .truncated := by
  rw [runChunks, if_pos hl, hcut]
  exact if_pos hl

/-- One turn of the loop at a chunk. -/
theorem runChunks_decoded {l : Loader} (hl : l.status = .running) {bs rest : Bytes} {i : Instr}
    (hchunk : decodeChunk bs = some (i, rest)) (fuel : Nat) :
    runChunks (fuel + 1) bs l = runChunks fuel rest (chunkStep i l) := by
  rw [runChunks, if_pos hl, hchunk]

/-- A loader that no longer reads ignores every chunk. -/
theorem chunkStep_of_not_running {l : Loader} (hl : l.status ≠ .running) (i : Instr) : chunkStep i l = l := by
  cases i with
  | chunkChip | chunkDemo | chunkMach | chunkUnknown | chunkEnd => exact if_neg hl
  | _ => rfl

/-- The loop does with the bytes of `chunks` what their fold does, a turn for each chunk. -/
theorem runChunks_flatMap_append {p : Params} {chunks : List Instr}
    (hchunks : ∀ i ∈ chunks, IsPayloadChunk p i) (fuel : Nat) (tail : Bytes) (l : Loader) :
    runChunks (fuel + chunks.length) (chunks.flatMap (encode p) ++ tail) l =
      runChunks fuel tail (chunks.foldl (fun l i => chunkStep i l) l) := by
  induction chunks generalizing l with
  | nil => rfl
  | cons i chunks ih =>
    obtain ⟨hi, hchunks⟩ := List.forall_mem_cons.1 hchunks
    rw [List.foldl_cons, ← ih hchunks (chunkStep i l), List.length_cons, ← Nat.add_assoc]
    by_cases hl : l.status = .running
    · obtain ⟨tag, payload, crc, htag, hlength, hencode, hdecoded⟩ := hi.exists_encode_eq
      refine runChunks_decoded hl ?_ _
      rw [List.flatMap_cons, List.append_assoc, hencode, hdecoded, decodeChunk_encodeChunk htag hlength]
    · rw [chunkStep_of_not_running hl, runChunks_of_not_running hl, runChunks_of_not_running hl]

/-- Every chunk takes a byte. -/
theorem length_le_length_flatMap_encode {p : Params} {chunks : List Instr}
    (hchunks : ∀ i ∈ chunks, IsPayloadChunk p i) : chunks.length ≤ (chunks.flatMap (encode p)).length := by
  induction chunks with
  | nil => exact Nat.le_refl 0
  | cons i chunks ih =>
    obtain ⟨hi, hchunks⟩ := List.forall_mem_cons.1 hchunks
    obtain ⟨tag, payload, crc, -, -, hencode, -⟩ := hi.exists_encode_eq
    have hpos := List.length_pos_iff.2 (encodeChunk_ne_nil tag payload crc)
    have hrest := ih hchunks
    rw [List.flatMap_cons, List.length_append, List.length_cons, hencode]
    omega

/-! ## What a blob holds (R383) -/

/-- What the loop's last state says of the blob: its fault, or the staged chip and log. -/
def Loader.verdict (l : Loader) : Except FaultCode (Chip × Option Bytes) :=
  match l.status with
  | .failed e => .error e
  | .running => .error .truncated
  | .done =>
    match l.staged with
    | none => .error .missingChip
    | some ch => .ok (ch, l.log)

theorem Loader.verdict_of_failed {l : Loader} {e : FaultCode} (hl : l.status = .failed e) :
    l.verdict = .error e := by rw [Loader.verdict, hl]

theorem readSnapshot_of_length_ne {p : Params} {blob : Bytes} (hlength : blob.length ≠ p.snapshotSize) :
    readSnapshot p blob = .error .badSize := if_pos hlength

/-- A blob of the right size fails on its version, or is what the loop makes of the bytes behind it. -/
theorem readSnapshot_be32_append {p : Params} {v : Word} {rest : Bytes}
    (hlength : (be32 v ++ rest).length = p.snapshotSize) :
    readSnapshot p (be32 v ++ rest) = if v ≠ p.snapshotVersion then .error .versionMismatch else
      (runChunks (rest.length + 1) rest Loader.start).verdict := by
  rw [readSnapshot, if_neg (not_not_intro hlength), takeBE32_be32]
  rfl

/-- A blob whose chunks are `chunks`, then `tail`: the loop reaches `tail` with a turn to spare. -/
theorem readSnapshot_chunks {p : Params} {chunks : List Instr} {tail : Bytes}
    (hlength : (be32 p.snapshotVersion ++ (chunks.flatMap (encode p) ++ tail)).length = p.snapshotSize)
    (hchunks : ∀ i ∈ chunks, IsPayloadChunk p i) :
    ∃ fuel, readSnapshot p (be32 p.snapshotVersion ++ (chunks.flatMap (encode p) ++ tail)) =
      (runChunks (fuel + 1) tail (chunks.foldl (fun l i => chunkStep i l) Loader.start)).verdict := by
  have hturns : chunks.length ≤ (chunks.flatMap (encode p) ++ tail).length := by
    rw [List.length_append]
    exact Nat.le_add_right_of_le (length_le_length_flatMap_encode hchunks)
  obtain ⟨fuel, hfuel⟩ := Nat.exists_eq_add_of_le' hturns
  refine ⟨fuel, ?_⟩
  rw [readSnapshot_be32_append hlength, if_neg (not_not_intro rfl), hfuel, Nat.add_right_comm,
    runChunks_flatMap_append hchunks]

/-! ## The end chunk (R379) -/

/-- The end chunk is the loop's last: whether it is accepted or fails, the loader no longer reads. -/
theorem status_loadEnd_ne_running (n : Word) (trailing : Bytes) (l : Loader) :
    (loadEnd n trailing l).status ≠ .running := by
  rw [loadEnd]
  split_ifs with hl
  · exact nofun
  · exact nofun
  · exact nofun
  · exact hl

/-- One turn of the loop at an end chunk. -/
theorem runChunks_end {l : Loader} (hl : l.status = .running) {tag : Word} (htag : tag = Config.tagEnd) (n : Word)
    (body : Bytes) (fuel : Nat) : runChunks (fuel + 1) (be32 tag ++ be32 n ++ body) l = loadEnd n body l := by
  rw [htag, runChunks_decoded hl (decodeChunk_tagEnd n body)]
  exact runChunks_of_not_running (status_loadEnd_ne_running n body l) fuel []

theorem loadEnd_of_ne {l : Loader} (hl : l.status = .running) {n : Word} (hn : n ≠ 0#32) (trailing : Bytes) :
    loadEnd n trailing l = l.fail .badEnd := by
  rw [loadEnd, if_pos hl, if_pos hn]

theorem loadEnd_of_nonzero {l : Loader} (hl : l.status = .running) {n : Word} (hn : n = 0#32)
    {trailing : Bytes} (hbytes : ∃ b ∈ trailing, b ≠ 0#8) : loadEnd n trailing l = l.fail .trailingData := by
  have hany : trailing.any (· != 0#8) = true := by simpa only [List.any_eq_true, bne_iff_ne] using hbytes
  rw [loadEnd, if_pos hl, if_neg (not_not_intro hn), if_pos hany]

theorem loadEnd_of_zeros {l : Loader} (hl : l.status = .running) {n : Word} (hn : n = 0#32)
    {trailing : Bytes} (hbytes : ∀ b ∈ trailing, b = 0#8) : loadEnd n trailing l = { l with status := .done } := by
  have hany : ¬trailing.any (· != 0#8) = true := by
    simpa only [List.any_eq_true, bne_iff_ne, not_exists, not_and, not_not] using hbytes
  rw [loadEnd, if_pos hl, if_neg (not_not_intro hn), if_neg hany]

/-! ## The load itself (R383, R384) -/

/-- What a load leaves before it reads a byte: both stops and the machine reset. -/
theorem loadBegin_eq (s : State) : loadBegin s = { s with
    chip := Chip.reset, keys := 0, demo := s.demo.bothStopped } := by
  rw [loadBegin, stopIfPlaying_stopIfRecording]
  rfl

theorem exec_loadSnapshot {s : State} (hs : s.HostHolding) (blob : Bytes) :
    exec (.loadSnapshot blob) s =
      .next { (loadSnapshot blob s).1 with result := .load (loadSnapshot blob s).2 } :=
  guarded_pass (fun s => ((loadSnapshot blob s).1, .load (loadSnapshot blob s).2)) ((lockedCheck_pass s).2 hs)

theorem loadSnapshot_of_error {s : State} {blob : Bytes} {e : FaultCode} (hread : readSnapshot s.par blob = .error e) :
    loadSnapshot blob s = ({ s with
      chip := Chip.reset, keys := 0, demo := { s.demo.bothStopped with mode := .idle } }, .error e) := by
  simp only [loadSnapshot, loadBegin_eq, hread]
  rfl

theorem loadSnapshot_of_ok {s : State} {blob : Bytes} {ch : Chip} {log : Option Bytes}
    (hread : readSnapshot s.par blob = .ok (ch, log)) :
    loadSnapshot blob s = ({ s with
      chip := ch, keys := 0, demo := { s.demo.bothStopped with committed := log } }, .ok ()) := by
  simp only [loadSnapshot, loadBegin_eq, hread]
  rfl

/-- Settles O48: `readSnapshot_chunks` brings the loop to the tail, where each way a tail is cut or ends has its own
lemma; the two states a load leaves are `loadSnapshot_of_error` and `loadSnapshot_of_ok`. -/
theorem loadFailure : Obligations.LoadFailure := by
  refine ⟨fun p blob => ⟨readSnapshot_of_length_ne, ?_⟩, fun blob s hs => ⟨fun e hread => ?_, fun ch log hread => ?_⟩⟩
  · rintro v chunks tail rfl hlength hchunks l
    refine ⟨fun hv => ?_, ?_⟩
    · rw [readSnapshot_be32_append hlength, if_pos hv]
    rw [← forall_and]
    rintro rfl
    obtain ⟨fuel, hread⟩ := readSnapshot_chunks hlength hchunks
    rw [hread]
    refine ⟨fun e hfailed => ?_, fun hl => ⟨fun hshort => ?_, ?_⟩⟩
    · rw [runChunks_of_not_running (by rw [hfailed]; exact nofun), Loader.verdict_of_failed hfailed]
    · rw [runChunks_cut hl (decodeChunk_of_length_lt hshort)]
      rfl
    · rintro tag n body rfl
      refine ⟨fun htag hbody => ?_, fun htag hn => ?_, fun htag hn hbytes => ?_, fun htag hn hbytes => ?_⟩
      · rw [runChunks_cut hl (decodeChunk_of_body_lt htag hbody)]
        rfl
      · rw [runChunks_end hl htag, loadEnd_of_ne hl hn]
        rfl
      · rw [runChunks_end hl htag, loadEnd_of_nonzero hl hn hbytes]
        rfl
      · rw [runChunks_end hl htag, loadEnd_of_zeros hl hn hbytes, Loader.verdict]
        exact ⟨fun hstaged => by rw [hstaged], fun ch hstaged => by rw [hstaged]⟩
  · rw [exec_loadSnapshot hs, loadSnapshot_of_error hread]
  · rw [exec_loadSnapshot hs, loadSnapshot_of_ok hread]

end Sys2Proof.Machine

/-! # What an instruction can do

`exec_next` says once what a completed instruction has done: one constructor of `Ran` for each kind of instruction.
`Reaches` says of two states that the second comes from the first by moves of the chip, the pipeline, the
synchronizer and the line decoder, each move an operation of its part; every instruction and every step reaches its
next state (`Ran.reaches`, `step_reaches`), so that an invariant of a part has only that part's moves to survive. -/

namespace Sys2Proof.Machine

open Relation

/-! ## The instructions by kind -/

/-- What a register write instruction does to the chip (R131 to R142); the others do nothing to it. -/
def chipWrite : Instr → Chip → Chip
  | .wrFrqLo0 v => wrFrqLo 0 v
  | .wrFrqLo1 v => wrFrqLo 1 v
  | .wrFrqLo2 v => wrFrqLo 2 v
  | .wrToneCtl0 v => wrToneCtl 0 v
  | .wrToneCtl1 v => wrToneCtl 1 v
  | .wrToneCtl2 v => wrToneCtl 2 v
  | .wrNoiseCtl v => wrNoiseCtl v
  | .wrSysCtl v => wrSysCtl v
  | .wrVolL c v => wrVolL c v
  | .wrVolR c v => wrVolR c v
  | .wrPage k v => wrPage k v
  | .wrIntCtl v => wrIntCtl v
  | .wrKbdRow v => wrKbdRow v
  | _ => id

theorem exec_regWrite {i : Instr} (hi : i.format = .regWrite) (s : State) :
    exec i s = guarded accessCheck s fun s => (s.withChip (chipWrite i s.chip), .unit) := by
  cases i with
  | wrFrqLo0 | wrFrqLo1 | wrFrqLo2 | wrToneCtl0 | wrToneCtl1 | wrToneCtl2 | wrNoiseCtl | wrSysCtl | wrVolL | wrVolR
  | wrPage | wrIntCtl | wrKbdRow | wrB6 | wrReserved | wrUnmapped => rfl
  | _ => cases hi

theorem exec_regRead {i : Instr} (hi : i.format = .regRead) (s : State) :
    ∃ v, exec i s = guarded accessCheck s fun s => (s, .byte v) := by
  cases i with
  | rdWo | rdPage | rdIntStat | rdKbdCol | rdTape | rdReserved | rdUnmapped => exact ⟨_, rfl⟩
  | _ => cases hi

/-- `writeRegister` does to the chip what the instruction of its address does. -/
theorem writeReg_eq_chipWrite (p : Params) (addr v : Byte) :
    writeReg p addr v = chipWrite (decodeRegWrite p addr v) := by
  obtain ⟨i, f, hrow⟩ := exists_writeRow p addr v
  rw [hrow.decode_eq, hrow.writeReg_eq]
  cases hrow <;> rfl

/-- A demo record is the dispatch of some event (R337 to R340). -/
theorem exec_demoRecord {i : Instr} (hi : i.format = .demoRecord) (s : State) :
    ∃ ty payload, exec i s = guarded unlockedCheck s fun s => (dispatchEvent ty payload s, .unit) := by
  cases i with
  | demoEnd delta payload => exact ⟨0x00#8, payload, rfl⟩
  | demoKeyDown delta payload => exact ⟨0x01#8, payload, rfl⟩
  | demoKeyUp delta payload => exact ⟨0x02#8, payload, rfl⟩
  | demoUnknown delta ty payload => exact ⟨0x03#8, payload, rfl⟩
  | _ => cases hi

theorem exec_snapshotChunk {i : Instr} (hi : i.format = .snapshotChunk) (s : State) :
    exec i s = .next { s with loader := chunkStep i s.loader, result := .unit } := by
  cases i with
  | chunkChip | chunkDemo | chunkMach | chunkEnd | chunkUnknown => rfl
  | _ => cases hi

theorem exec_toInstr (c : Command) (s : State) :
    exec c.toInstr s = guarded unlockedCheck s fun s => (applyCommand s c, .unit) := by
  cases c <;> rfl

theorem exists_command {i : Instr} (hi : i.format = .command) : ∃ c : Command, i = c.toInstr := by
  cases i with
  | cmdReset => exact ⟨.reset, rfl⟩
  | cmdKeyDown k => exact ⟨.keyDown k, rfl⟩
  | cmdKeyUp k => exact ⟨.keyUp k, rfl⟩
  | cmdSetVolume v => exact ⟨.setVolume v, rfl⟩
  | cmdTape op => exact ⟨.tape op, rfl⟩
  | cmdMouseDelta dx dy => exact ⟨.mouseDelta dx dy, rfl⟩
  | cmdSetPaused b => exact ⟨.setPaused b, rfl⟩
  | cmdDemoRecordStart => exact ⟨.demoRecordStart, rfl⟩
  | cmdDemoRecordStop => exact ⟨.demoRecordStop, rfl⟩
  | cmdDemoPlayStart blob => exact ⟨.demoPlayStart blob, rfl⟩
  | cmdDemoPlayStop => exact ⟨.demoPlayStop, rfl⟩
  | _ => cases hi

/-- The state, up to what is returned, in which a completed instruction leaves the block. -/
inductive Ran (s : State) : Instr → State → Prop
  | regWrite {i : Instr} (hi : i.format = .regWrite) : Ran s i (s.withChip (chipWrite i s.chip))
  | regRead {i : Instr} (hi : i.format = .regRead) : Ran s i s
  | tag {i : Instr} (hi : i.format = .scanlineTag) : Ran s i (s.withDec (tagStep s.par i s.dec))
  | record {i : Instr} (hi : i.format = .demoRecord) (ty : Byte) (payload : Bytes) :
      Ran s i (dispatchEvent ty payload s)
  | chunk {i : Instr} (hi : i.format = .snapshotChunk) : Ran s i (s.withLoader (chunkStep i s.loader))
  | command (c : Command) : Ran s c.toInstr (applyCommand s c)
  | cycle : Ran s .advanceOneCycle (advance s).1
  | writeRegister (a v : Byte) : Ran s (.writeRegister a v) (callEnv s (.writeRegister a v))
  | readRegister (a : Byte) : Ran s (.readRegister a) s
  | setInt1State (b : Bool) : Ran s (.setInt1State b) (callEnv s (.setInt1State b))
  | setInt2State (b : Bool) : Ran s (.setInt2State b) (callEnv s (.setInt2State b))
  | setTapeInput (b : Bool) : Ran s (.setTapeInput b) (callEnv s (.setTapeInput b))
  | setTapeFeedback (b : Bool) : Ran s (.setTapeFeedback b) (callEnv s (.setTapeFeedback b))
  | submitScanline (k : Nat) (payload : Bytes) :
      Ran s (.submitScanline k payload) (callEnv s (.submitScanline k payload))
  | notifyFieldSync (lev : Bool) (slot : Nat) :
      Ran s (.notifyFieldSync lev slot) (callEnv s (.notifyFieldSync lev slot))
  | requestFrame : Ran s .requestFrame (requestFrame s).1
  | requestAutodetect : Ran s .requestAutodetect (s.withPipe { s.pipe with autodetectReq := true })
  | setViewport (x1 y1 x2 y2 : Nat) : Ran s (.setViewport x1 y1 x2 y2) (setViewport x1 y1 x2 y2 s).1
  | enqueue (c : Command) : Ran s (.enqueue c) (enqueue c s).1
  | runFor (us : Nat) (env : List (List EnvCall)) : Ran s (.runFor us env) (runFor us env s)
  | lock (ms : Nat) : Ran s (.lock ms) (lockMachine ms s).1
  | unlock : Ran s .unlock (unlockMachine s)
  | requestShutdown : Ran s .requestShutdown (shutdownRequest s)
  | saveSnapshot : Ran s .saveSnapshot s
  | loadSnapshot (blob : Bytes) : Ran s (.loadSnapshot blob) (loadSnapshot blob s).1
  | demoBlob : Ran s .demoBlob s

/-- A guarded call of kind `hran` that gives a next state has run. -/
theorem ran_of_guarded {i : Instr} {check : State → Option Refusal} {s t : State} {go : State → State × Result}
    (h : guarded check s go = .next t) (hran : Ran s i (go s).1) : ∃ u r, Ran s i u ∧ t = u.withResult r :=
  ⟨_, _, hran, (guarded_next h).2⟩

theorem guardedUnit_eq (check : State → Option Refusal) (s : State) (f : State → State) :
    guardedUnit check s f = guarded check s fun s => (f s, .unit) := rfl

/-- An interface operation (R113) is guarded by the check of the contexts that may make it. -/
theorem exec_interface {i : Instr} (hi : i.format = .interface) (s : State) :
    ∃ check go, exec i s = guarded check s go ∧ Ran s i (go s).1 := by
  unfold exec
  cases i with
  | advanceOneCycle => exact ⟨_, _, rfl, .cycle⟩
  | writeRegister a v => exact ⟨_, _, guardedUnit_eq _ _ _, .writeRegister a v⟩
  | readRegister a => exact ⟨_, _, rfl, .readRegister a⟩
  | setInt1State b => exact ⟨_, _, guardedUnit_eq _ _ _, .setInt1State b⟩
  | setInt2State b => exact ⟨_, _, guardedUnit_eq _ _ _, .setInt2State b⟩
  | setTapeInput b => exact ⟨_, _, guardedUnit_eq _ _ _, .setTapeInput b⟩
  | setTapeFeedback b => exact ⟨_, _, guardedUnit_eq _ _ _, .setTapeFeedback b⟩
  | submitScanline k payload => exact ⟨_, _, guardedUnit_eq _ _ _, .submitScanline k payload⟩
  | notifyFieldSync lev slot => exact ⟨_, _, guardedUnit_eq _ _ _, .notifyFieldSync lev slot⟩
  | requestFrame => exact ⟨_, _, rfl, .requestFrame⟩
  | requestAutodetect => exact ⟨_, _, guardedUnit_eq _ _ _, .requestAutodetect⟩
  | setViewport x1 y1 x2 y2 => exact ⟨_, _, rfl, .setViewport x1 y1 x2 y2⟩
  | enqueue c => exact ⟨_, _, rfl, .enqueue c⟩
  | runFor us env => exact ⟨_, _, guardedUnit_eq _ _ _, .runFor us env⟩
  | lock ms => exact ⟨_, _, rfl, .lock ms⟩
  | unlock => exact ⟨_, _, guardedUnit_eq _ _ _, .unlock⟩
  | requestShutdown => exact ⟨_, _, guardedUnit_eq _ _ _, .requestShutdown⟩
  | saveSnapshot => exact ⟨_, _, rfl, .saveSnapshot⟩
  | loadSnapshot blob => exact ⟨_, _, rfl, .loadSnapshot blob⟩
  | demoBlob => exact ⟨_, _, rfl, .demoBlob⟩
  | _ => cases hi

/-- What a completed instruction has done. -/
theorem exec_next {i : Instr} {s t : State} (h : exec i s = .next t) : ∃ u r, Ran s i u ∧ t = u.withResult r := by
  cases hi : i.format with
  | regWrite =>
    rw [exec_regWrite hi] at h
    exact ran_of_guarded h (.regWrite hi)
  | regRead =>
    obtain ⟨v, hv⟩ := exec_regRead hi s
    rw [hv] at h
    exact ran_of_guarded h (.regRead hi)
  | scanlineTag =>
    rw [exec_scanlineTag s hi] at h
    exact ⟨_, .unit, .tag hi, (Host.Outcome.next.inj h).symm⟩
  | demoRecord =>
    obtain ⟨ty, payload, hrecord⟩ := exec_demoRecord hi s
    rw [hrecord] at h
    exact ran_of_guarded h (.record hi ty payload)
  | snapshotChunk =>
    rw [exec_snapshotChunk hi] at h
    exact ⟨_, .unit, .chunk hi, (Host.Outcome.next.inj h).symm⟩
  | command =>
    obtain ⟨c, rfl⟩ := exists_command hi
    rw [exec_toInstr] at h
    exact ran_of_guarded h (.command c)
  | interface =>
    obtain ⟨check, go, hguarded, hran⟩ := exec_interface hi s
    rw [hguarded] at h
    exact ran_of_guarded h hran

/-! ## The calls' guards (R74, R75, R402) -/

theorem guarded_ne_fault (check : State → Option Refusal) (s : State) (go : State → State × Result) (f : Fault) :
    guarded check s go ≠ .fault f := by
  unfold guarded
  cases check s <;> exact nofun

/-- No instruction stops with a fault (R392, R394). -/
theorem exec_ne_fault (i : Instr) (s : State) (f : Fault) : exec i s ≠ .fault f := by
  cases hi : i.format with
  | regWrite =>
    rw [exec_regWrite hi]
    exact guarded_ne_fault _ _ _ _
  | regRead =>
    obtain ⟨v, hv⟩ := exec_regRead hi s
    rw [hv]
    exact guarded_ne_fault _ _ _ _
  | scanlineTag =>
    rw [exec_scanlineTag s hi]
    exact nofun
  | demoRecord =>
    obtain ⟨ty, payload, hrecord⟩ := exec_demoRecord hi s
    rw [hrecord]
    exact guarded_ne_fault _ _ _ _
  | snapshotChunk =>
    rw [exec_snapshotChunk hi]
    exact nofun
  | command =>
    obtain ⟨c, rfl⟩ := exists_command hi
    rw [exec_toInstr]
    exact guarded_ne_fault _ _ _ _
  | interface =>
    obtain ⟨check, go, hguarded, -⟩ := exec_interface hi s
    rw [hguarded]
    exact guarded_ne_fault _ _ _ _

/-- The register accesses share one check. -/
theorem exec_registerAccess {i : Instr} (hi : RegisterAccess i) (s : State) :
    ∃ go, exec i s = guarded accessCheck s go := by
  rcases hi with hi | hi | ⟨a, v, rfl⟩ | ⟨a, rfl⟩
  · exact ⟨_, exec_regWrite hi s⟩
  · obtain ⟨v, hv⟩ := exec_regRead hi s
    exact ⟨_, hv⟩
  · unfold exec
    exact ⟨_, guardedUnit_eq _ _ _⟩
  · unfold exec
    exact ⟨_, rfl⟩

/-- The machine context's calls but `runFor` share one check. -/
theorem exec_machineCall {i : Instr} (hi : MachineCall i) (s : State) :
    ∃ go, exec i s = guarded unlockedCheck s go := by
  rcases hi with hi | hi | rfl | ⟨b, rfl⟩ | ⟨b, rfl⟩ | ⟨b, rfl⟩ | ⟨b, rfl⟩ | ⟨k, p, rfl⟩ | ⟨l, k, rfl⟩
  · obtain ⟨ty, payload, hrecord⟩ := exec_demoRecord hi s
    exact ⟨_, hrecord⟩
  · obtain ⟨c, rfl⟩ := exists_command hi
    exact ⟨_, exec_toInstr c s⟩
  all_goals unfold exec
  · exact ⟨_, rfl⟩
  all_goals exact ⟨_, guardedUnit_eq _ _ _⟩

/-- The host's calls that need no lock share one check. -/
theorem exec_hostCall {i : Instr} (hi : HostCall i) (s : State) : ∃ go, exec i s = guarded hostCheck s go := by
  rcases hi with rfl | rfl | ⟨a, b, c, d, rfl⟩ | ⟨c, rfl⟩ | ⟨ms, rfl⟩ | rfl | rfl <;> unfold exec
  · exact ⟨_, rfl⟩
  · exact ⟨_, guardedUnit_eq _ _ _⟩
  · exact ⟨_, rfl⟩
  · exact ⟨_, rfl⟩
  · exact ⟨_, rfl⟩
  · exact ⟨_, guardedUnit_eq _ _ _⟩
  · exact ⟨_, guardedUnit_eq _ _ _⟩

/-- The host's calls that need the lock share one check. -/
theorem exec_lockedCall {i : Instr} (hi : LockedCall i) (s : State) : ∃ go, exec i s = guarded lockedCheck s go := by
  rcases hi with rfl | ⟨b, rfl⟩ | rfl <;> unfold exec <;> exact ⟨_, rfl⟩

/-- Settles O50: each class of calls is guarded by its one check, which names the refusal. -/
theorem contextChecks : Obligations.ContextChecks := by
  intro i s
  refine ⟨fun hi => ?_, fun hi => ?_, fun us env hi hcaller => ?_, fun hi hcaller => ?_, fun hi => ?_⟩
  · obtain ⟨go, hgo⟩ := exec_registerAccess hi s
    rw [hgo]
    exact ⟨fun hcaller hlock => guarded_refused go (by simp [accessCheck, hcaller, hlock]),
      fun hcaller hlock => guarded_refused go (by simp [accessCheck, hcaller, hlock])⟩
  · obtain ⟨go, hgo⟩ := exec_machineCall hi s
    rw [hgo]
    exact ⟨fun hcaller hlock => guarded_refused go (by simp [unlockedCheck, hcaller, hlock]),
      fun hcaller => guarded_refused go (by simp [unlockedCheck, hcaller])⟩
  · subst hi
    exact guarded_refused (check := machineCheck) (fun s => (runFor us env s, .unit)) (by simp [machineCheck, hcaller])
  · obtain ⟨go, hgo⟩ := exec_hostCall hi s
    rw [hgo]
    exact guarded_refused go (by simp [hostCheck, hcaller])
  · obtain ⟨go, hgo⟩ := exec_lockedCall hi s
    rw [hgo]
    exact ⟨fun hcaller => guarded_refused go (by simp [lockedCheck, hcaller]),
      fun hcaller hlock => guarded_refused go (by simp [lockedCheck, hcaller, hlock])⟩

/-- Settles O52, by decoding the nine words. -/
theorem decodeWords : Obligations.DecodeWords := by
  unfold Obligations.DecodeWords
  decide

end Sys2Proof.Machine

namespace Sys2Proof.Machine

open Relation

/-! ## The moves of the four parts -/

/-- What moves the chip: a machine reset, a register write, a cycle, a source's new level, the tape inputs, a load. -/
inductive ChipMove (p : Params) (ch : Chip) : Chip → Prop
  | reset : ChipMove p ch Chip.reset
  | write (i : Instr) : ChipMove p ch (chipWrite i ch)
  | cycle : ChipMove p ch (chipCycle p ch).1
  | source (i : Fin 4) (b : Bool) : ChipMove p ch (setIntState i b ch)
  | tape (a b : Bool) : ChipMove p ch { ch with tapeIn := a, tapeFb := b }
  | load {blob : Bytes} {loaded : Chip} {log : Option Bytes} (h : readSnapshot p blob = .ok (loaded, log)) :
      ChipMove p ch loaded

/-- What moves the line decoder: the start of a row and a tag. -/
inductive DecMove (p : Params) (d : LineDec) : LineDec → Prop
  | start : DecMove p d (LineDec.start p)
  | tag (i : Instr) : DecMove p d (tagStep p i d)

/-- What moves the synchronizer: its flags and its count of dropped commands, the queue emptied, a command appended,
the remainder of a budget, the phase of a machine cycle. -/
inductive SyncMove (p : Params) (y : Sync) : Sync → Prop
  | flags (shut paused held seen : Bool) (n : Nat) :
      SyncMove p y { y with shutdown := shut, paused := paused, lockHeld := held, dropped := n, shutSeen := seen }
  | empty : SyncMove p y { y with cmdq := [] }
  | enqueue (c : Command) (h : y.cmdq.length < p.cmdqCap) : SyncMove p y { y with cmdq := y.cmdq ++ [c] }
  | remainder (n : Nat) : SyncMove p y { y with cycleRem := n % 1000000 }
  | wrap : SyncMove p y { y with mcPhase := 0 }
  | count (h : y.mcPhase + 1 ≠ Config.mcPerChip) : SyncMove p y { y with mcPhase := y.mcPhase + 1 }

/-- What a drain does behind the splice of the queue (R254 to R260), in its smallest parts. -/
inductive DrainMove (p : Params) (pi : Pipe) : Pipe → Prop
  | slot (i : Nat) (payload : Bytes) : DrainMove p pi { pi with slots := LineMap.insert pi.slots i payload }
  | interlace (n : Nat) : DrainMove p pi { pi with interlaceCnt := n }
  | decode (e : Nat × Bytes) : DrainMove p pi (decodeSlot p pi e)
  | store (q : Bool) (e : Nat × Bytes) : DrainMove p pi (storeFieldRow p q pi e)
  | picture (q : Bool) (i j : Nat) : DrainMove p pi { pi with fb := copyRow p pi.fb i (pi.rows q) j }
  | close (n : Nat) (border : Option Byte) (bbox : Option Box) : DrainMove p pi { pi with
      slots := [], frameReady := n, border := border, bbox := bbox, autodetectReq := false }

/-- What a wait may become: an open one has time left, no more than the open one before it or a new call's. -/
def WaitFrom (p : Params) (pi : Pipe) (w : Option Nat) : Prop :=
  ∀ left', w = some left' →
    0 < left' ∧ ∃ left, (pi.waitLeft = some left ∨ left = p.frameTimeoutMs) ∧ left' ≤ left

/-- What moves the pipeline: the appends of the two events, the count of lines and the field synchronisation, a
drain, the delivery of a frame with the wait for it, and the host's two settings. -/
inductive PipeMove (p : Params) (pi : Pipe) : Pipe → Prop
  | line {i : Nat} (h : i < p.slots) (payload : Bytes) :
      PipeMove p pi { pi with evq := supersede i pi.evq ++ [.line i payload] }
  | done (odd : Bool) : PipeMove p pi { pi with evq := boundEvq p (pi.evq ++ [.frameDone odd]) }
  | pulse (lev : Bool) (n : Nat) (odd : Bool) :
      PipeMove p pi { pi with vsyncState := lev, vsyncCnt := n, oddPending := odd }
  | take : PipeMove p pi { pi with evq := [] }
  | drain {pi' : Pipe} (h : DrainMove p pi pi') : PipeMove p pi pi'
  | deliver {w : Option Nat} (h : WaitFrom p pi w) (n : Nat) :
      PipeMove p pi { pi with waitLeft := w, frameReady := n }
  | request : PipeMove p pi { pi with autodetectReq := true }
  | view {v : Viewport} (h : viewportOk (clampViewport p v) = true) :
      PipeMove p pi { pi with viewport := clampViewport p v }

/-- `t` comes from `s` by moves of its parts. -/
structure Reaches (s t : State) : Prop where
  par : t.par = s.par
  chip : ReflTransGen (ChipMove s.par) s.chip t.chip
  pipe : ReflTransGen (PipeMove s.par) s.pipe t.pipe
  sync : ReflTransGen (SyncMove s.par) s.sync t.sync
  dec : ReflTransGen (DecMove s.par) s.dec t.dec

theorem Reaches.trans {s t u : State} (h : Reaches s t) (h' : Reaches t u) : Reaches s u where
  par := h'.par.trans h.par
  chip := h.chip.trans (h.par ▸ h'.chip)
  pipe := h.pipe.trans (h.par ▸ h'.pipe)
  sync := h.sync.trans (h.par ▸ h'.sync)
  dec := h.dec.trans (h.par ▸ h'.dec)

/-- The parts that moves are about, the parameters and the caller. -/
def State.core (s : State) : Params × Agent × Chip × Pipe × Sync × LineDec :=
  (s.par, s.caller, s.chip, s.pipe, s.sync, s.dec)

theorem State.core_eq_iff (s t : State) : t.core = s.core ↔ t.par = s.par ∧ t.caller = s.caller ∧
    t.chip = s.chip ∧ t.pipe = s.pipe ∧ t.sync = s.sync ∧ t.dec = s.dec := by
  simp [State.core]

theorem Reaches.of_parts {s t : State} (hpar : t.par = s.par) (hchip : t.chip = s.chip) (hpipe : t.pipe = s.pipe)
    (hsync : t.sync = s.sync) (hdec : t.dec = s.dec) : Reaches s t :=
  ⟨hpar, hchip ▸ .refl, hpipe ▸ .refl, hsync ▸ .refl, hdec ▸ .refl⟩

theorem Reaches.refl (s : State) : Reaches s s := .of_parts rfl rfl rfl rfl rfl

/-- A change of nothing but the demo layer, the loader, the port and the model's own fields. -/
theorem Reaches.of_core {s t : State} (h : t.core = s.core) : Reaches s t := by
  obtain ⟨hpar, -, hchip, hpipe, hsync, hdec⟩ := (s.core_eq_iff t).1 h
  exact .of_parts hpar hchip hpipe hsync hdec

theorem Reaches.chipMove {s : State} {ch : Chip} (h : ChipMove s.par s.chip ch) : Reaches s (s.withChip ch) :=
  ⟨rfl, .single h, .refl, .refl, .refl⟩

theorem Reaches.syncMove {s : State} {y : Sync} (h : SyncMove s.par s.sync y) : Reaches s (s.withSync y) :=
  ⟨rfl, .refl, .refl, .single h, .refl⟩

theorem Reaches.decMove {s : State} {d : LineDec} (h : DecMove s.par s.dec d) : Reaches s (s.withDec d) :=
  ⟨rfl, .refl, .refl, .refl, .single h⟩

/-- A fold of steps that each reach their result reaches its result. -/
theorem Reaches.foldl {α : Type} {f : State → α → State} (h : ∀ s a, Reaches s (f s a)) (l : List α) (s : State) :
    Reaches s (l.foldl f s) := by
  induction l generalizing s with
  | nil => exact .refl s
  | cons a l ih => exact (h s a).trans (ih (f s a))

/-! ## The drain as moves -/

theorem foldl_path {α β : Type} {r : α → α → Prop} {f : α → β → α} (h : ∀ a b, ReflTransGen r a (f a b))
    (l : List β) (a : α) : ReflTransGen r a (l.foldl f a) := by
  induction l generalizing a with
  | nil => exact .refl
  | cons b l ih => exact (h a b).trans (ih (f a b))

/-- The writes of R258 for one field line, each a row copied into the picture. -/
theorem composeLine_path (p : Params) (q : Bool) (pi : Pipe) (fb : Memory) (i : Nat) :
    ReflTransGen (DrainMove p) { pi with fb := fb } { pi with fb := composeLine p q pi fb i } := by
  have hcopy (fb : Memory) (r : Bool) (y : Nat) :
      DrainMove p { pi with fb := fb } { pi with fb := copyRow p fb y (pi.rows r) i } :=
    .picture (pi := { pi with fb := fb }) r y i
  unfold composeLine
  split
  · exact .single (hcopy fb q i)
  · split
    · exact .tail (.single (hcopy _ q _)) (hcopy _ (!q) _)
    · exact .tail (.single (hcopy _ q _)) (hcopy _ q _)

theorem composite_path (p : Params) (q : Bool) (pi : Pipe) :
    ReflTransGen (DrainMove p) pi (composite p q pi) := by
  have hlines (lines : List Nat) (fb : Memory) : ReflTransGen (DrainMove p) { pi with fb := fb }
      { pi with fb := lines.foldl (composeLine p q pi) fb } := by
    induction lines generalizing fb with
    | nil => exact .refl
    | cons i lines ih => exact (composeLine_path p q pi fb i).trans (ih _)
  exact hlines _ pi.fb

theorem frameDone_path (p : Params) (odd : Bool) (pi : Pipe) :
    ReflTransGen (DrainMove p) pi (frameDone p odd pi) := by
  have hinterlace : ReflTransGen (DrainMove p) pi (stepInterlace p odd pi) := .single (.interlace _)
  have hdecode (pi : Pipe) : ReflTransGen (DrainMove p) pi (decodeChanged p pi) :=
    foldl_path (fun _ e => .single (.decode e)) _ _
  have hstore (pi : Pipe) : ReflTransGen (DrainMove p) pi (storeFieldRows p odd pi) :=
    foldl_path (fun _ e => .single (.store odd e)) _ _
  have hend (pi : Pipe) : ReflTransGen (DrainMove p) pi (fieldEnd p pi) := by
    rw [fieldEnd_eq]
    exact .single (.close _ _ _)
  rw [frameDone_eq]
  exact (((hinterlace.trans (hdecode _)).trans (hstore _)).trans (composite_path p odd _)).trans (hend _)

/-- A drain is the splice of the queue and moves behind it. -/
theorem drain_path (p : Params) (pi : Pipe) :
    ReflTransGen (DrainMove p) { pi with evq := [] } (drain p pi) := by
  refine foldl_path (fun pi e => ?_) pi.evq _
  cases e with
  | line i payload => exact .single (.slot i payload)
  | frameDone odd => exact frameDone_path p odd pi

/-- The fields of the pipeline that a drain does not touch behind the splice of the queue: the producer's, the
viewport and the wait. -/
def Pipe.outer (pi : Pipe) : Bool × Nat × Bool × List Event × Viewport × Option Nat :=
  (pi.vsyncState, pi.vsyncCnt, pi.oddPending, pi.evq, pi.viewport, pi.waitLeft)

theorem DrainMove.outer_eq {p : Params} {pi pi' : Pipe} (h : DrainMove p pi pi') : pi'.outer = pi.outer := by
  cases h with
  | decode e =>
    unfold decodeSlot
    split <;> rfl
  | store q e =>
    unfold storeFieldRow
    split
    · cases q <;> rfl
    · rfl
  | _ => rfl

theorem drain_outer (p : Params) (pi : Pipe) :
    (drain p pi).vsyncState = pi.vsyncState ∧ (drain p pi).vsyncCnt = pi.vsyncCnt ∧
    (drain p pi).oddPending = pi.oddPending ∧ (drain p pi).evq = [] ∧ (drain p pi).viewport = pi.viewport ∧
    (drain p pi).waitLeft = pi.waitLeft := by
  have houter : (drain p pi).outer = ({ pi with evq := [] } : Pipe).outer := by
    have hpath := drain_path p pi
    generalize drain p pi = pi' at hpath ⊢
    induction hpath with
    | refl => rfl
    | tail _ hmove ih => rw [hmove.outer_eq, ih]
  simpa [Pipe.outer] using houter

/-! ## Runs of the pipeline alone -/

/-- `t` comes from `s` by moves of the pipeline, which touch of the rest only what the machine context has seen of the
shutdown, the outputs, the draws and the result. -/
structure PipeRun (s t : State) : Prop where
  par : t.par = s.par
  caller : t.caller = s.caller
  chip : t.chip = s.chip
  dec : t.dec = s.dec
  sync : ∃ seen, t.sync = { s.sync with shutSeen := seen }
  pipe : ReflTransGen (PipeMove s.par) s.pipe t.pipe

theorem PipeRun.of_core {s t : State} (h : t.core = s.core) : PipeRun s t := by
  obtain ⟨hpar, hcaller, hchip, hpipe, hsync, hdec⟩ := (s.core_eq_iff t).1 h
  exact ⟨hpar, hcaller, hchip, hdec, ⟨_, hsync⟩, hpipe ▸ .refl⟩

theorem PipeRun.refl (s : State) : PipeRun s s := .of_core rfl

theorem PipeRun.path {s : State} {pi : Pipe} (h : ReflTransGen (PipeMove s.par) s.pipe pi) :
    PipeRun s (s.withPipe pi) := ⟨rfl, rfl, rfl, rfl, ⟨_, rfl⟩, h⟩

theorem PipeRun.move {s : State} {pi : Pipe} (h : PipeMove s.par s.pipe pi) : PipeRun s (s.withPipe pi) :=
  .path (.single h)

theorem PipeRun.trans {s t u : State} (h : PipeRun s t) (h' : PipeRun t u) : PipeRun s u where
  par := h'.par.trans h.par
  caller := h'.caller.trans h.caller
  chip := h'.chip.trans h.chip
  dec := h'.dec.trans h.dec
  sync := by
    obtain ⟨seen, hseen⟩ := h.sync
    obtain ⟨seen', hseen'⟩ := h'.sync
    exact ⟨seen', by rw [hseen', hseen]⟩
  pipe := h.pipe.trans (h.par ▸ h'.pipe)

theorem PipeRun.reaches {s t : State} (h : PipeRun s t) : Reaches s t := by
  obtain ⟨seen, hseen⟩ := h.sync
  refine ⟨h.par, h.chip ▸ .refl, h.pipe, ?_, h.dec ▸ .refl⟩
  rw [hseen]
  exact .single (.flags s.sync.shutdown s.sync.paused s.sync.lockHeld seen s.sync.dropped)

theorem WaitFrom.none (p : Params) (pi : Pipe) : WaitFrom p pi none := fun _ h => nomatch h

/-- A drain followed by a delivery. -/
theorem PipeRun.round (s : State) {w : Option Nat} (hw : WaitFrom s.par s.pipe w) (n : Nat) :
    PipeRun s (s.withPipe { drain s.par s.pipe with waitLeft := w, frameReady := n }) := by
  obtain ⟨-, -, -, -, -, hwait⟩ := drain_outer s.par s.pipe
  have hdrain : ReflTransGen (PipeMove s.par) { s.pipe with evq := [] } (drain s.par s.pipe) :=
    (drain_path s.par s.pipe).lift id fun _ _ h => .drain h
  exact .path (.tail (.head .take hdrain) (.deliver (by rwa [WaitFrom, hwait]) n))

/-- One round of `requestFrame`, by an open wait or a new call. -/
theorem frameRound_run {left : Nat} {s : State} (hleft : s.pipe.waitLeft = some left ∨ left = s.par.frameTimeoutMs) :
    PipeRun s (frameRound left s).1 := by
  rcases frameRound_cases left s with ⟨-, h⟩ | ⟨-, -, h⟩ | ⟨-, -, -, h⟩ | ⟨-, -, hms, h⟩ <;> rw [h]
  · exact (PipeRun.round s (.none _ _) 0).trans (.of_core rfl)
  · exact (PipeRun.round s (.none _ _) _).trans (.of_core rfl)
  · exact (PipeRun.round s (.none _ _) _).trans (.of_core rfl)
  · refine (PipeRun.round s (w := some _) ?_ _).trans (.of_core rfl)
    rintro _ ⟨⟩
    exact ⟨by omega, left, hleft, by omega⟩

theorem wakeFrame_run (s : State) : PipeRun s (wakeFrame s) := by
  have hdraw : PipeRun s (s.withDraws (s.draws + 1)) := .of_core rfl
  rcases wakeFrame_cases s with ⟨-, h⟩ | ⟨left, hleft, h | h⟩ <;> rw [h]
  · exact .refl s
  · exact hdraw
  · exact hdraw.trans (frameRound_run (.inl hleft))

theorem machineQueueOp_run (s : State) : PipeRun s (machineQueueOp s) :=
  ⟨rfl, rfl, rfl, rfl, ⟨_, rfl⟩, .refl⟩

theorem appendEvent_run {q : List Event} {s : State} (h : PipeMove s.par s.pipe { s.pipe with evq := q }) :
    PipeRun s (appendEvent q s) :=
  ((PipeRun.move h).trans (machineQueueOp_run _)).trans (wakeFrame_run _)

/-- The end of R252: a complete field's FrameDone is appended and the count cleared. -/
def completeField (s : State) : State :=
  if fieldComplete s.par s.pipe then
    appendEvent (boundEvq s.par (s.pipe.evq ++ [.frameDone s.pipe.oddPending]))
      (s.withPipe { s.pipe with vsyncCnt := 0 })
  else s

/-- The count of R252 behind the append of a line. -/
def countedLine (s : State) : State := s.withPipe (countLine s.pipe)

/-- R250 to R252 in order: append, count, complete. -/
theorem submitLine_of_lt {i : Nat} {s : State} (hi : i < s.par.slots) (payload : Bytes) : submitLine i payload s =
    completeField (countedLine (appendEvent (supersede i s.pipe.evq ++ [.line i payload]) s)) :=
  if_neg (Nat.not_le_of_lt hi)

theorem completeField_run (s : State) : PipeRun s (completeField s) := by
  unfold completeField
  split
  · have hclear : PipeRun s (s.withPipe { s.pipe with vsyncCnt := 0 }) := .move (.pulse _ _ _)
    exact hclear.trans (appendEvent_run (s := s.withPipe { s.pipe with vsyncCnt := 0 }) (.done _))
  · exact .refl s

theorem submitLine_run (i : Nat) (payload : Bytes) (s : State) : PipeRun s (submitLine i payload s) := by
  rcases Nat.lt_or_ge i s.par.slots with hi | hi
  · rw [submitLine_of_lt hi]
    have hcount (u : State) : PipeRun u (countedLine u) := .move (.pulse _ _ _)
    exact ((appendEvent_run (.line hi payload)).trans (hcount _)).trans (completeField_run _)
  · rw [submitLine, if_pos hi]
    exact .refl s

theorem notifyFieldSync_run (lev : Bool) (slot : Nat) (s : State) :
    PipeRun s (s.withPipe (fieldSync s.par lev slot s.pipe)) := by
  rw [fieldSync_eq]
  exact .move (.pulse _ _ _)

theorem returnFrame_run (f : Option Frame) (s : State) : PipeRun s (returnFrame f s) :=
  (PipeRun.move (.deliver (.none _ _) s.pipe.frameReady)).trans (.of_core rfl)

theorem requestFrame_run (s : State) : PipeRun s (requestFrame s).1 := by
  have hcall (u : State) (hpar : u.par = s.par) : PipeRun u (frameRound s.par.frameTimeoutMs u).1 :=
    frameRound_run (.inr (by rw [hpar]))
  unfold requestFrame
  split
  · have hround := (returnFrame_run none s).trans (hcall _ rfl)
    dsimp only
    split <;> exact hround
  · have hround := hcall s rfl
    dsimp only
    split <;> exact hround

theorem setViewport_run (x1 y1 x2 y2 : Nat) (s : State) : PipeRun s (setViewport x1 y1 x2 y2 s).1 := by
  unfold setViewport
  dsimp only
  split
  · next hok => exact .move (.view hok)
  · exact .refl s

end Sys2Proof.Machine

namespace Sys2Proof.Machine

open Relation

/-! ## The demo layer alone -/

theorem stopIfRecording_core (s : State) : (stopIfRecording s).core = s.core := by
  rw [stopIfRecording_eq]
  rfl

theorem stopIfPlaying_core (s : State) : (stopIfPlaying s).core = s.core := by
  rw [stopIfPlaying_eq]
  rfl

theorem keyEvent_core (down : Bool) (payload : Bytes) (s : State) : (keyEvent down payload s).core = s.core := by
  unfold keyEvent
  split
  · split <;> rfl
  · rfl

theorem dispatchEvent_core (ty : Byte) (payload : Bytes) (s : State) :
    (dispatchEvent ty payload s).core = s.core := by
  unfold dispatchEvent
  split_ifs
  · rfl
  · exact keyEvent_core ..
  · exact keyEvent_core ..
  · rfl

theorem readDelta_core (pos : Nat) (s : State) : (readDelta pos s).core = s.core := by
  unfold readDelta
  split <;> rfl

theorem dispatchOne_core (s : State) : (dispatchOne s).core = s.core := by
  unfold dispatchOne
  split
  · rfl
  · next ty payload rest _ =>
    have hevent := dispatchEvent_core ty payload
      (s.withDemo { s.demo with playPos := s.demo.playBuf.length - rest.length })
    dsimp only
    split
    · exact (readDelta_core _ _).trans hevent
    · exact hevent

theorem playLoop_core (fuel : Nat) (s : State) : (playLoop fuel s).core = s.core := by
  induction fuel generalizing s with
  | zero => rfl
  | succ fuel ih =>
    rw [playLoop]
    split
    · exact (ih _).trans (dispatchOne_core s)
    · rfl

theorem playDue_core (s : State) : (playDue s).core = s.core := playLoop_core _ s

theorem demoTick_core (s : State) : (demoTick s).core = s.core := by
  unfold demoTick
  split
  · rfl
  · rfl
  · exact playDue_core _

theorem startRecording_core (s : State) : (startRecording s).core = s.core := by
  unfold startRecording
  split <;> rfl

theorem cmdKey_core (down : Bool) (k : BitVec 7) (s : State) : (cmdKey down k s).core = s.core := by
  rw [cmdKey_eq]
  rfl

theorem cmdRecordStart_core (s : State) : (cmdRecordStart s).core = s.core :=
  (startRecording_core _).trans ((stopIfRecording_core _).trans (stopIfPlaying_core s))

/-! ## Loads and commands -/

theorem machineReset_reaches (s : State) : Reaches s (machineReset s) :=
  (Reaches.chipMove .reset).trans (.of_core rfl)

theorem loadBegin_reaches (s : State) : Reaches s (loadBegin s) :=
  (Reaches.of_core ((stopIfPlaying_core _).trans (stopIfRecording_core s))).trans (machineReset_reaches _)

theorem loadSnapshot_reaches (blob : Bytes) (s : State) : Reaches s (loadSnapshot blob s).1 := by
  refine (loadBegin_reaches s).trans ?_
  rcases loadSnapshot_cases blob s with ⟨ch, log, hread, h⟩ | ⟨e, -, h⟩ <;> rw [h]
  · exact (Reaches.chipMove (.load hread)).trans (.of_core rfl)
  · exact (machineReset_reaches _).trans (.of_core rfl)

theorem startPlayback_reaches (blob : Bytes) (s : State) : Reaches s (startPlayback blob s) := by
  refine (loadSnapshot_reaches blob s).trans ?_
  unfold startPlayback
  dsimp only
  generalize loadSnapshot blob s = r
  split
  · exact .of_core rfl
  · split
    · exact (machineReset_reaches _).trans (.of_core rfl)
    · split
      · exact .of_core ((playDue_core _).trans (readDelta_core _ _))
      · exact .of_core rfl

theorem applyCommand_reaches (s : State) (c : Command) : Reaches s (applyCommand s c) := by
  have hstops := (stopIfPlaying_core _).trans (stopIfRecording_core s)
  cases c with
  | reset => exact (Reaches.of_core hstops).trans (machineReset_reaches _)
  | keyDown k => exact .of_core (cmdKey_core true k s)
  | keyUp k => exact .of_core (cmdKey_core false k s)
  | setVolume v => exact .of_core rfl
  | tape op => exact .of_core rfl
  | mouseDelta dx dy => exact .of_core rfl
  | setPaused b => exact .syncMove (.flags _ b _ _ _)
  | demoRecordStart => exact .of_core (cmdRecordStart_core s)
  | demoRecordStop => exact .of_core (stopIfRecording_core s)
  | demoPlayStart blob => exact (Reaches.of_core hstops).trans (startPlayback_reaches blob _)
  | demoPlayStop => exact .of_core (stopIfPlaying_core s)

/-! ## Machine cycles and runs -/

theorem callEnv_reaches (s : State) (c : EnvCall) : Reaches s (callEnv s c) := by
  cases c with
  | writeRegister a v =>
    rw [callEnv, writeReg_eq_chipWrite]
    exact .chipMove (.write _)
  | readRegister a => exact .of_core rfl
  | setInt1State b => exact .chipMove (.source 2 b)
  | setInt2State b => exact .chipMove (.source 3 b)
  | setTapeInput b => exact .chipMove (.tape b _)
  | setTapeFeedback b => exact .chipMove (.tape _ b)
  | submitScanline i payload => exact (submitLine_run i payload s).reaches
  | notifyFieldSync lev slot => exact (notifyFieldSync_run lev slot s).reaches

theorem advance_reaches (s : State) : Reaches s (advance s).1 := by
  have hcycle : ChipMove s.par s.chip (chipCycle s.par s.chip).1 := .cycle
  unfold advance
  generalize chipCycle s.par s.chip = r at hcycle ⊢
  exact (Reaches.chipMove hcycle).trans (.of_core rfl)

theorem machineCycle_reaches (calls : List EnvCall) (s : State) : Reaches s (machineCycle calls s) := by
  refine (Reaches.foldl callEnv_reaches calls s).trans ?_
  unfold machineCycle envStep
  generalize calls.foldl callEnv s = u
  dsimp only
  split
  · exact ((Reaches.syncMove .wrap).trans (advance_reaches _)).trans (.of_core (demoTick_core _))
  · next hphase => exact .syncMove (.count hphase)

theorem machineCycles_reaches (n : Nat) (env : List (List EnvCall)) (s : State) :
    Reaches s (machineCycles n env s) := by
  induction n generalizing env s with
  | zero => exact .refl s
  | succ n ih => exact (machineCycle_reaches _ s).trans (ih _ _)

theorem runBudget_reaches (us : Nat) (env : List (List EnvCall)) (s : State) : Reaches s (runBudget us env s) := by
  unfold runBudget
  split
  · exact .refl s
  · exact (Reaches.syncMove (.remainder _)).trans (machineCycles_reaches _ _ _)

theorem readShutdown_core (s : State) : (readShutdown s).2.core = s.core := by
  rcases readShutdown_cases s with ⟨-, h⟩ | ⟨-, -, h⟩ | ⟨-, -, h⟩
  · rw [h]
  · rw [h]
  · rw [h]
    rfl

theorem machineQueueOp_reaches (s : State) : Reaches s (machineQueueOp s) := (machineQueueOp_run s).reaches

theorem shutdownMachine_reaches (s : State) : Reaches s (shutdownMachine s) := by
  refine (Reaches.of_core ((stopIfPlaying_core _).trans (stopIfRecording_core s))).trans ?_
  unfold shutdownMachine
  generalize stopIfPlaying (stopIfRecording s) = u
  exact (Reaches.syncMove .empty).trans (.syncMove (.flags _ _ _ true _))

theorem runFor_reaches (us : Nat) (env : List (List EnvCall)) (s : State) : Reaches s (runFor us env s) := by
  have hread : Reaches s (readShutdown s).2 := .of_core (readShutdown_core s)
  rcases runFor_cases us env s with ⟨-, h⟩ | ⟨-, -, h⟩ | ⟨-, -, h⟩ <;> rw [h]
  · exact .refl s
  · exact hread.trans (shutdownMachine_reaches _)
  · refine hread.trans ?_
    generalize (readShutdown s).2 = u
    have hsplice : Reaches u (machineQueueOp (u.withSync { u.sync with cmdq := [] })) :=
      (Reaches.syncMove .empty).trans (machineQueueOp_reaches _)
    exact (hsplice.trans (Reaches.foldl applyCommand_reaches _ _)).trans (runBudget_reaches _ _ _)

/-! ## The host's calls -/

theorem enqueue_reaches (c : Command) (s : State) : Reaches s (enqueue c s).1 := by
  rcases enqueue_cases c s with ⟨-, h⟩ | ⟨-, -, h⟩ | ⟨-, hroom, h⟩ <;> rw [h]
  · exact .refl s
  · exact .syncMove (.flags _ _ _ _ (s.sync.dropped + 1))
  · exact .syncMove (.enqueue c hroom)

theorem lockMachine_reaches (ms : Nat) (s : State) : Reaches s (lockMachine ms s).1 := by
  rcases lockMachine_cases ms s with ⟨-, h⟩ | ⟨-, -, h⟩ | ⟨-, -, h⟩ <;> rw [h]
  · exact .refl s
  · exact .of_core rfl
  · exact (Reaches.syncMove (s := s) (.flags _ _ true _ _)).trans (.of_core rfl)

theorem unlockMachine_reaches (s : State) : Reaches s (unlockMachine s) := by
  rcases unlockMachine_cases s with ⟨-, h⟩ | ⟨-, h⟩ <;> rw [h]
  · exact .refl s
  · exact .syncMove (.flags _ _ false (s.sync.shutSeen || s.sync.shutdown) _)

theorem shutdownRequest_reaches (s : State) : Reaches s (shutdownRequest s) :=
  (Reaches.syncMove (.flags true _ _ _ _)).trans (wakeFrame_run _).reaches

/-! ## Instructions and steps -/

theorem Ran.reaches {s t : State} {i : Instr} (h : Ran s i t) : Reaches s t := by
  cases h with
  | regWrite hi => exact .chipMove (.write i)
  | regRead hi => exact .refl s
  | tag hi => exact .decMove (.tag i)
  | record hi ty payload => exact .of_core (dispatchEvent_core ty payload s)
  | chunk hi => exact .of_core rfl
  | command c => exact applyCommand_reaches s c
  | cycle => exact advance_reaches s
  | writeRegister | setInt1State | setInt2State | setTapeInput | setTapeFeedback | submitScanline
  | notifyFieldSync => exact callEnv_reaches s _
  | readRegister a => exact .refl s
  | requestFrame => exact (requestFrame_run s).reaches
  | requestAutodetect => exact (PipeRun.move .request).reaches
  | setViewport x1 y1 x2 y2 => exact (setViewport_run x1 y1 x2 y2 s).reaches
  | enqueue c => exact enqueue_reaches c s
  | runFor us env => exact runFor_reaches us env s
  | lock ms => exact lockMachine_reaches ms s
  | unlock => exact unlockMachine_reaches s
  | requestShutdown => exact shutdownRequest_reaches s
  | saveSnapshot => exact .refl s
  | loadSnapshot blob => exact loadSnapshot_reaches blob s
  | demoBlob => exact .refl s

theorem exec_reaches {i : Instr} {s t : State} (h : exec i s = .next t) : Reaches s t := by
  obtain ⟨u, r, hran, rfl⟩ := exec_next h
  exact hran.reaches.trans (.of_core rfl)

theorem openItem_reaches (it : Item) (s : State) : Reaches s (openItem it s) := by
  rcases openItem_cases it s with ⟨-, -, h⟩ | ⟨-, -, h⟩ | ⟨-, h⟩ <;> rw [h]
  · exact .decMove .start
  · exact .of_core rfl
  · exact .refl s

theorem fetched_reaches (it : Item) (rest : Bytes) (later : List Item) (s : State) :
    Reaches s (fetched it rest later s) :=
  (openItem_reaches it s).trans (.of_parts rfl rfl rfl rfl rfl)

theorem cutShort_reaches {it : Item} {s t : State} (h : cutShort it s = .next t) : Reaches s t := by
  rcases cutShort_cases it s with ⟨-, hcut⟩ | ⟨-, hcut⟩ | ⟨-, hcut⟩ | ⟨-, hcut⟩ <;> rw [hcut] at h
  · cases h
    exact (Reaches.decMove (.tag (.unknownTag 0#8))).trans (.of_core rfl)
  · obtain ⟨-, rfl⟩ := guarded_next h
    exact .of_core rfl
  · cases h
    exact .of_core rfl
  · cases h

/-- Every step reaches its next state. -/
theorem step_reaches {s t : State} (h : step s = .next t) : Reaches s t := by
  rcases step_cases s with ⟨-, hstep⟩ | ⟨-, -, hstep⟩ | ⟨it, later, -, -, -, hstep⟩ |
      ⟨it, later, i, rest, -, -, -, hstep⟩ <;> rw [hstep] at h
  · cases h
  · cases h
    exact .refl s
  · exact (fetched_reaches ..).trans (cutShort_reaches h)
  · exact (fetched_reaches ..).trans (exec_reaches h)

end Sys2Proof.Machine

/-! # The invariants of every step

An invariant of a part survives a step when it survives each move of the part (`keeps_path`). -/

namespace Sys2Proof.Machine

open Relation

/-- What every move keeps, a path keeps. -/
theorem keeps_path {α : Type} {r : α → α → Prop} {I : α → Prop} (hI : ∀ a b, r a b → I a → I b) {a b : α}
    (hpath : ReflTransGen r a b) (ha : I a) : I b := by
  induction hpath with
  | refl => exact ha
  | tail _ hmove ih => exact hI _ _ hmove ih

/-! ## The pixel planes (10_state.md section 10) -/

theorem wf_copyRow (p : Params) {dst src : Memory} (i j : Nat) (hdst : dst.wf) (hsrc : src.wf) :
    (copyRow p dst i src j).wf := Memory.wf_copyBlock _ _ _ _ _ hdst hsrc

theorem DrainMove.planesWf {p : Params} {pi pi' : Pipe} (hmove : DrainMove p pi pi') (h : pi.PlanesWf) :
    pi'.PlanesWf := by
  obtain ⟨hdecoded, hrows0, hrows1, hfb⟩ := h
  cases hmove with
  | slot | interlace | close => exact ⟨hdecoded, hrows0, hrows1, hfb⟩
  | decode e =>
    unfold decodeSlot
    split
    · exact ⟨hdecoded, hrows0, hrows1, hfb⟩
    · exact ⟨Memory.wf_writeBytes _ _ _ hdecoded, hrows0, hrows1, hfb⟩
  | store q e =>
    unfold storeFieldRow
    split
    · cases q
      · exact ⟨hdecoded, wf_copyRow p _ _ hrows0 hdecoded, hrows1, hfb⟩
      · exact ⟨hdecoded, hrows0, wf_copyRow p _ _ hrows1 hdecoded, hfb⟩
    · exact ⟨hdecoded, hrows0, hrows1, hfb⟩
  | picture q i j =>
    have hrows : (pi.rows q).wf := by cases q <;> assumption
    exact ⟨hdecoded, hrows0, hrows1, wf_copyRow p _ _ hfb hrows⟩

theorem PipeMove.planesWf {p : Params} {pi pi' : Pipe} (hmove : PipeMove p pi pi') (h : pi.PlanesWf) :
    pi'.PlanesWf := by
  cases hmove with
  | drain hdrain => exact hdrain.planesWf h
  | _ => exact h

/-- Settles O54: every move of the pipeline keeps the canonical form. -/
theorem stepKeepsMemory : Obligations.StepKeepsMemory := fun _ _ hs hstep =>
  keeps_path (fun _ _ hmove => hmove.planesWf) (step_reaches hstep).pipe hs

/-! ## The polynomial counters (R25, R200) -/

theorem vlenLen_pos (w : BitVec 2) : 0 < vlenLen w := by
  rcases twoBits_cases w with rfl | rfl | rfl | rfl <;> decide

theorem chipFields_ranges (b : Bytes) : (chipFields b).Ranges :=
  ⟨Nat.mod_lt _ (by decide), Nat.mod_lt _ (by decide), Nat.mod_lt _ (by decide), Nat.mod_lt _ (vlenLen_pos _)⟩

theorem eq_chipFields_of_decodeChip {b : Bytes} {ch : Chip} (h : decodeChip b = .ok ch) : ch = chipFields b := by
  unfold decodeChip at h
  split at h
  · cases h
  · dsimp only at h
    split at h
    · exact (Except.ok.inj h).symm
    · cases h

/-- A staged chip is in its ranges. -/
def Loader.StagedOk (l : Loader) : Prop := ∀ ch, l.staged = some ch → ch.Ranges

/-- A chunk behind its checksum either fails the loader or does what `go` does. -/
theorem Loader.checked_stagedOk {l : Loader} (hl : l.StagedOk) {go : Loader → Loader} (hgo : (go l).StagedOk)
    (payload : Bytes) (crc : Word) : (Loader.checked payload crc go l).StagedOk := by
  unfold Loader.checked
  split_ifs
  · exact hgo
  · exact hl
  · exact hl

theorem chunkStep_stagedOk (i : Instr) {l : Loader} (hl : l.StagedOk) : (chunkStep i l).StagedOk := by
  cases i with
  | chunkChip payload crc =>
    refine Loader.checked_stagedOk hl ?_ payload crc
    split
    · exact hl
    · split
      · next ch hdecode =>
        rintro _ ⟨⟩
        rw [eq_chipFields_of_decodeChip hdecode]
        exact chipFields_ranges payload
      · exact hl
  | chunkDemo payload crc =>
    refine Loader.checked_stagedOk hl ?_ payload crc
    split <;> exact hl
  | chunkMach payload crc => exact Loader.checked_stagedOk hl hl payload crc
  | chunkUnknown tag payload crc => exact Loader.checked_stagedOk hl hl payload crc
  | chunkEnd n trailing =>
    change (loadEnd n trailing l).StagedOk
    unfold loadEnd
    split_ifs <;> exact hl
  | _ => exact hl

theorem runChunks_stagedOk (fuel : Nat) (bs : Bytes) {l : Loader} (hl : l.StagedOk) :
    (runChunks fuel bs l).StagedOk := by
  induction fuel generalizing bs l with
  | zero => exact hl
  | succ fuel ih =>
    rw [runChunks]
    split
    · split
      · unfold loadCut
        split <;> exact hl
      · exact ih _ (chunkStep_stagedOk _ hl)
    · exact hl

/-- A load gives a chip in its ranges. -/
theorem ranges_of_readSnapshot {p : Params} {blob : Bytes} {ch : Chip} {log : Option Bytes}
    (h : readSnapshot p blob = .ok (ch, log)) : ch.Ranges := by
  unfold readSnapshot at h
  split at h
  · cases h
  split at h
  · cases h
  next v rest _ =>
  split at h
  · cases h
  dsimp only at h
  have hstaged := runChunks_stagedOk (rest.length + 1) rest (l := Loader.start) (fun _ hnone => nomatch hnone)
  generalize runChunks (rest.length + 1) rest Loader.start = l at h hstaged
  split at h
  · cases h
  · cases h
  split at h
  · cases h
  · next hch =>
    cases h
    exact hstaged _ hch

theorem chipWrite_ranges (i : Instr) {ch : Chip} (h : ch.Ranges) : (chipWrite i ch).Ranges := by
  obtain ⟨h4, h5, h7, hv⟩ := h
  cases i with
  | wrNoiseCtl v => exact ⟨h4, h5, h7, Nat.mod_lt _ (vlenLen_pos _)⟩
  | wrIntCtl v =>
    rw [chipWrite, wrIntCtl_eq]
    exact ⟨h4, h5, h7, hv⟩
  | _ => exact ⟨h4, h5, h7, hv⟩

theorem chipCycle_ranges (p : Params) (ch : Chip) : (chipCycle p ch).1.Ranges := by
  rw [chipCycle_eq, voices_eq]
  exact ⟨Nat.mod_lt _ (by decide), Nat.mod_lt _ (by decide), Nat.mod_lt _ (by decide), Nat.mod_lt _ (vlenLen_pos _)⟩

theorem ChipMove.ranges {p : Params} {ch ch' : Chip} (hmove : ChipMove p ch ch') (h : ch.Ranges) : ch'.Ranges := by
  cases hmove with
  | reset => decide
  | write i => exact chipWrite_ranges i h
  | cycle => exact chipCycle_ranges p ch
  | source i b =>
    rw [setIntState_eq]
    exact h
  | tape a b => exact h
  | load hread => exact ranges_of_readSnapshot hread

/-- Settles O55: every move of the chip keeps the ranges. -/
theorem stepKeepsChipRanges : Obligations.StepKeepsChipRanges := fun _ _ hs hstep =>
  keeps_path (fun _ _ hmove => hmove.ranges) (step_reaches hstep).chip hs

/-! ## The small fields (R230, R268, R272, R291, R315, R316) -/

theorem SyncMove.bounded {p : Params} {y y' : Sync} (hmove : SyncMove p y y') (h : y.Bounded p) : y'.Bounded p := by
  obtain ⟨hqueue, hrem, hphase⟩ := h
  cases hmove with
  | flags => exact ⟨hqueue, hrem, hphase⟩
  | empty => exact ⟨Nat.zero_le _, hrem, hphase⟩
  | enqueue c hroom => exact ⟨by rw [List.length_append, List.length_singleton]; omega, hrem, hphase⟩
  | remainder n => exact ⟨hqueue, Nat.mod_lt _ (by decide), hphase⟩
  | wrap => exact ⟨hqueue, hrem, Nat.zero_lt_two⟩
  | count hnext => exact ⟨hqueue, hrem, Nat.lt_of_le_of_ne hphase hnext⟩

/-- A tag keeps the row's width (R230). -/
theorem length_row_tagStep {p : Params} {d : LineDec} (i : Instr) (h : d.row.length = p.outW) :
    (tagStep p i d).row.length = p.outW := by
  by_cases hfin : d.finished p = true
  · rw [tagStep_of_finished i hfin, h]
  have hemit (pix : Nat → Byte) : (emit p pix d).row.length = p.outW := by
    rw [emit_of_not_finished pix hfin]
    rw [LineDec.finished_iff, not_or] at hfin
    exact (length_writeRun _ (by omega)).trans h
  cases i with
  | blank | fill1 | fill2 | fill4 | fill8 | bmp8 | bmp16 => exact hemit _
  | _ =>
    change (endOfData p d).row.length = p.outW
    rw [endOfData_of_not_finished hfin, h]

theorem DecMove.rowLength {p : Params} {d d' : LineDec} (hmove : DecMove p d d') (h : d.row.length = p.outW) :
    d'.row.length = p.outW := by
  cases hmove with
  | start => exact List.length_replicate
  | tag i => exact length_row_tagStep i h

theorem inRaster_of_viewportOk {p : Params} {v : Viewport} (h : viewportOk (clampViewport p v) = true) :
    (clampViewport p v).InRaster p := by
  obtain ⟨hx, hy⟩ := (viewportOk_iff _).1 h
  exact ⟨Nat.le_of_lt hx, Nat.min_le_right _ _, Nat.le_of_lt hy, Nat.min_le_right _ _⟩

/-- The pipeline's part of the bounds: the viewport, the wait and the line maps. -/
def Pipe.Bounded (p : Params) (pi : Pipe) : Prop := pi.viewport.InRaster p ∧ WaitOk p pi.waitLeft ∧ pi.MapsWf

theorem DrainMove.bounded {p : Params} {pi pi' : Pipe} (hmove : DrainMove p pi pi') (h : pi.Bounded p) :
    pi'.Bounded p := by
  obtain ⟨hview, hwait, hslots, hcache⟩ := h
  cases hmove with
  | slot i payload => exact ⟨hview, hwait, LineMap.wf_insert _ _ _ hslots, hcache⟩
  | interlace | picture => exact ⟨hview, hwait, hslots, hcache⟩
  | decode e =>
    unfold decodeSlot
    split
    · exact ⟨hview, hwait, hslots, hcache⟩
    · exact ⟨hview, hwait, hslots, LineMap.wf_insert _ _ _ hcache⟩
  | store q e =>
    unfold storeFieldRow
    split
    · cases q <;> exact ⟨hview, hwait, hslots, hcache⟩
    · exact ⟨hview, hwait, hslots, hcache⟩
  | close => exact ⟨hview, hwait, List.Pairwise.nil, hcache⟩

theorem PipeMove.bounded {p : Params} {pi pi' : Pipe} (hmove : PipeMove p pi pi') (h : pi.Bounded p) :
    pi'.Bounded p := by
  obtain ⟨hview, hwait, hmaps⟩ := h
  cases hmove with
  | drain hdrain => exact hdrain.bounded ⟨hview, hwait, hmaps⟩
  | deliver hw n =>
    refine ⟨hview, fun left' hleft' => ?_, hmaps⟩
    obtain ⟨hpos, left, hopen | hnew, hle⟩ := hw left' hleft'
    · exact ⟨hpos, hle.trans (hwait left hopen).2⟩
    · exact ⟨hpos, hnew ▸ hle⟩
  | view hok => exact ⟨inRaster_of_viewportOk hok, hwait, hmaps⟩
  | _ => exact ⟨hview, hwait, hmaps⟩

/-- Settles O56: the moves of the synchronizer, the line decoder and the pipeline keep their bounds. -/
theorem stepKeepsBounds : Obligations.StepKeepsBounds := by
  intro s t ⟨hsync, hrow, hpipe⟩ hstep
  obtain ⟨hpar, -, hpipePath, hsyncPath, hdecPath⟩ := step_reaches hstep
  unfold State.Bounds
  rw [hpar]
  exact ⟨keeps_path (fun _ _ hmove => hmove.bounded) hsyncPath hsync,
    keeps_path (I := fun d => d.row.length = s.par.outW) (fun _ _ hmove => hmove.rowLength) hdecPath hrow,
    keeps_path (I := Pipe.Bounded s.par) (fun _ _ hmove => hmove.bounded) hpipePath hpipe⟩

end Sys2Proof.Machine

namespace Sys2Proof.Machine

open Relation

/-! ## The event queue by fields (R44, R250, R251, R263) -/

@[simp] theorem Event.isDone_line (i : Nat) (payload : Bytes) : (Event.line i payload).isDone = false := rfl
@[simp] theorem Event.isDone_frameDone (odd : Bool) : (Event.frameDone odd).isDone = true := rfl
@[simp] theorem Event.isLine_line (i j : Nat) (payload : Bytes) : (Event.line j payload).isLine i = (i == j) := rfl
@[simp] theorem Event.isLine_frameDone (i : Nat) (odd : Bool) : (Event.frameDone odd).isLine i = false := rfl

/-- The events of whole fields, up to and with a FrameDone. -/
abbrev WholeFields (older : List Event) : Prop := older = [] ∨ ∃ o odd, older = o ++ [.frameDone odd]

/-- A queue is whole fields and then a field that is still being received. -/
theorem exists_fields (q : List Event) :
    ∃ older current, q = older ++ current ∧ current.any Event.isDone = false ∧ WholeFields older := by
  induction q with
  | nil => exact ⟨[], [], rfl, rfl, .inl rfl⟩
  | cons e q ih =>
    obtain ⟨older, current, rfl, hcurrent, rfl | ⟨o, odd, rfl⟩⟩ := ih
    · cases e with
      | line i payload => exact ⟨[], .line i payload :: current, rfl, hcurrent, .inl rfl⟩
      | frameDone odd => exact ⟨[.frameDone odd], current, rfl, hcurrent, .inr ⟨[], odd, rfl⟩⟩
    · exact ⟨e :: (o ++ [.frameDone odd]), current, rfl, hcurrent, .inr ⟨e :: o, odd, rfl⟩⟩

theorem any_isDone_of_mem {q : List Event} {odd : Bool} (h : Event.frameDone odd ∈ q) : q.any Event.isDone = true :=
  List.any_eq_true.2 ⟨_, h, rfl⟩

/-- In a field being received every event of the line goes. -/
theorem supersede_current (i : Nat) {current : List Event} (h : current.any Event.isDone = false) :
    supersede i current = current.filter fun e => !e.isLine i := by
  induction current with
  | nil => rfl
  | cons e t ih =>
    rw [List.any_cons, Bool.or_eq_false_iff] at h
    obtain ⟨-, ht⟩ := h
    rw [supersede, ih ht, ht, List.filter_cons]
    cases e.isLine i <;> rfl

/-- R250, R251: only behind the last FrameDone is the line's event removed. -/
theorem supersede_append (i : Nat) {older current : List Event} (hcurrent : current.any Event.isDone = false)
    (holder : WholeFields older) :
    supersede i (older ++ current) = older ++ current.filter fun e => !e.isLine i := by
  obtain rfl | ⟨o, odd, rfl⟩ := holder
  · exact supersede_current i hcurrent
  · induction o with
    | nil =>
      rw [List.nil_append, List.singleton_append, supersede, supersede_current i hcurrent]
      rfl
    | cons e o ih =>
      have hlater : (o ++ [Event.frameDone odd] ++ current).any Event.isDone = true :=
        any_isDone_of_mem (odd := odd) (by simp)
      rw [List.cons_append, List.cons_append, supersede, hlater, ih]
      simp

theorem afterDone_current {current : List Event} (h : current.any Event.isDone = false) :
    afterDone current = current := by
  cases current with
  | nil => rfl
  | cons e t =>
    rw [List.any_cons, Bool.or_eq_false_iff] at h
    obtain ⟨he, ht⟩ := h
    simp [afterDone, he, ht]

/-- The field still being received is what stands behind the whole fields. -/
theorem afterDone_append {older current : List Event} (hcurrent : current.any Event.isDone = false)
    (holder : WholeFields older) : afterDone (older ++ current) = current := by
  obtain rfl | ⟨o, odd, rfl⟩ := holder
  · exact afterDone_current hcurrent
  · induction o with
    | nil =>
      rw [List.nil_append, List.singleton_append, afterDone, hcurrent]
      rfl
    | cons e o ih =>
      have hlater : (o ++ [Event.frameDone odd] ++ current).any Event.isDone = true :=
        any_isDone_of_mem (odd := odd) (by simp)
      rw [List.cons_append, List.cons_append, afterDone, if_pos hlater, ih]

/-- A queue with a FrameDone in it is its first field and what dropping that leaves. -/
theorem dropOldestField_spec {q : List Event} (h : 0 < (q.filter Event.isDone).length) :
    ∃ o odd, q = o ++ [.frameDone odd] ++ dropOldestField q ∧ o.filter Event.isDone = [] := by
  induction q with
  | nil => cases h
  | cons e q ih =>
    cases e with
    | frameDone odd => exact ⟨[], odd, rfl, rfl⟩
    | line i payload =>
      obtain ⟨o, odd, hq, ho⟩ := ih h
      exact ⟨.line i payload :: o, odd, congrArg (Event.line i payload :: ·) hq, ho⟩

/-- Dropping fields that are there drops whole fields, as many as asked for. -/
theorem dropFields_spec {n : Nat} {q : List Event} (h : n ≤ (q.filter Event.isDone).length) :
    ∃ older, q = older ++ dropFields n q ∧ (older.filter Event.isDone).length = n ∧ WholeFields older := by
  induction n generalizing q with
  | zero => exact ⟨[], rfl, rfl, .inl rfl⟩
  | succ n ih =>
    obtain ⟨o, odd, hq, ho⟩ := dropOldestField_spec (Nat.zero_lt_of_lt h)
    have hcount : (q.filter Event.isDone).length = 1 + ((dropOldestField q).filter Event.isDone).length := by
      conv_lhs => rw [hq]
      simp [ho, List.filter_cons, Nat.add_comm]
    obtain ⟨older, hrest, hdropped, hshape⟩ := ih (q := dropOldestField q) (by omega)
    refine ⟨o ++ [.frameDone odd] ++ older, ?_, ?_, .inr ?_⟩
    · rw [dropFields, List.append_assoc _ older, ← hrest, ← hq]
    · simp [ho, List.filter_cons, hdropped]
    · obtain rfl | ⟨o', odd', rfl⟩ := hshape
      · exact ⟨o, odd, List.append_nil _⟩
      · exact ⟨o ++ [.frameDone odd] ++ o', odd', by simp only [List.append_assoc]⟩

theorem boundEvq_of_none {p : Params} (h : p.evqFields = none) (q : List Event) : boundEvq p q = q := by
  rw [boundEvq, h]

/-- The bound drops the oldest whole fields beyond it (R263). -/
theorem boundEvq_of_some {p : Params} {n : Nat} (h : p.evqFields = some n) (q : List Event) :
    ∃ older, q = older ++ boundEvq p q ∧
      (older.filter Event.isDone).length = (q.filter Event.isDone).length - n ∧ WholeFields older := by
  have hbound : boundEvq p q = dropFields ((q.filter Event.isDone).length - n) q := by rw [boundEvq, h]
  rw [hbound]
  exact dropFields_spec (Nat.sub_le _ n)

/-- With a bound or without, what is kept is the end of the queue. -/
theorem exists_eq_append_boundEvq (p : Params) (q : List Event) : ∃ older, q = older ++ boundEvq p q := by
  cases h : p.evqFields with
  | none => exact ⟨[], (boundEvq_of_none h q).symm⟩
  | some n =>
    obtain ⟨older, hq, -⟩ := boundEvq_of_some h q
    exact ⟨older, hq⟩

/-- Behind an appended FrameDone no field is being received. -/
theorem afterDone_boundEvq (p : Params) (q : List Event) (odd : Bool) :
    afterDone (boundEvq p (q ++ [.frameDone odd])) = [] := by
  obtain ⟨older, hq⟩ := exists_eq_append_boundEvq p (q ++ [.frameDone odd])
  generalize boundEvq p (q ++ [.frameDone odd]) = kept at hq
  rcases List.eq_nil_or_concat kept with rfl | ⟨init, last, rfl⟩
  · rfl
  · rw [List.concat_eq_append, ← List.append_assoc] at hq
    obtain ⟨-, hlast⟩ := List.append_inj' hq rfl
    rw [List.concat_eq_append, ← hlast]
    simpa using afterDone_append (older := init ++ [.frameDone odd]) (current := []) rfl (.inr ⟨init, odd, rfl⟩)

/-! ## One event per line (R44, R251) -/

/-- The append of a line behind the removal of its old event. -/
theorem queueOk_line {p : Params} {q : List Event} (h : QueueOk p q) {i : Nat} (hi : i < p.slots) (payload : Bytes) :
    QueueOk p (supersede i q ++ [.line i payload]) := by
  obtain ⟨hindex, honce⟩ := h
  obtain ⟨older, current, rfl, hcurrent, holder⟩ := exists_fields q
  rw [afterDone_append hcurrent holder] at honce
  have hkept : ((current.filter fun e => !e.isLine i) ++ [Event.line i payload]).any Event.isDone = false := by
    rw [List.any_eq_false] at hcurrent ⊢
    intro e he
    rcases List.mem_append.1 he with he | he
    · exact hcurrent e (List.mem_of_mem_filter he)
    · rw [List.mem_singleton.1 he]
      exact Bool.false_ne_true
  rw [supersede_append i hcurrent holder, List.append_assoc]
  refine ⟨fun k bytes hk => ?_, fun k => ?_⟩
  · rcases List.mem_append.1 hk with hk | hk
    · exact hindex k bytes (List.mem_append_left _ hk)
    rcases List.mem_append.1 hk with hk | hk
    · exact hindex k bytes (List.mem_append_right _ (List.mem_of_mem_filter hk))
    · cases List.mem_singleton.1 hk
      exact hi
  · rw [afterDone_append hkept holder, List.filter_append, List.length_append]
    by_cases hk : i = k
    · subst hk
      have hnone : (current.filter fun e => !e.isLine i).filter (Event.isLine i) = [] := by
        simp [List.filter_filter]
      simp [hnone]
    · have hother : [Event.line i payload].filter (Event.isLine k) = [] := by simp [Ne.symm hk]
      rw [hother, List.length_nil, Nat.add_zero]
      exact (List.Sublist.length_le ((List.filter_sublist).filter _)).trans (honce k)

theorem queueOk_done {p : Params} {q : List Event} (h : QueueOk p q) (odd : Bool) :
    QueueOk p (boundEvq p (q ++ [.frameDone odd])) := by
  obtain ⟨hindex, -⟩ := h
  refine ⟨fun k bytes hk => ?_, fun k => by rw [afterDone_boundEvq]; exact Nat.zero_le 1⟩
  obtain ⟨older, hq⟩ := exists_eq_append_boundEvq p (q ++ [.frameDone odd])
  have hmem : .line k bytes ∈ q ++ [.frameDone odd] := hq ▸ List.mem_append_right older hk
  simpa using hindex k bytes (by simpa using hmem)

theorem queueOk_nil (p : Params) : QueueOk p [] := ⟨fun _ _ h => (nomatch h), fun _ => Nat.zero_le 1⟩

theorem PipeMove.queueOk {p : Params} {pi pi' : Pipe} (hmove : PipeMove p pi pi') (h : QueueOk p pi.evq) :
    QueueOk p pi'.evq := by
  cases hmove with
  | line hi payload => exact queueOk_line h hi payload
  | done odd => exact queueOk_done h odd
  | take => exact queueOk_nil p
  | drain hdrain =>
    have hevq : pi'.evq = pi.evq := congrArg (fun outer => outer.2.2.2.1) hdrain.outer_eq
    rwa [hevq]
  | _ => exact h

/-- Settles O57: the two appends keep the queue's form, and nothing else adds to it. -/
theorem stepKeepsQueue : Obligations.StepKeepsQueue := by
  intro s t hs hstep
  have hreach := step_reaches hstep
  rw [hreach.par]
  exact keeps_path (I := fun pi => QueueOk s.par pi.evq) (fun _ _ hmove => hmove.queueOk) hreach.pipe hs

/-! ## The decoded row of a payload (R220, R225, R230) -/

theorem length_row_decodeLoop {p : Params} (fuel : Nat) (bs : Bytes) {d : LineDec} (h : d.row.length = p.outW) :
    (decodeLoop p fuel bs d).row.length = p.outW := by
  induction fuel generalizing bs d with
  | zero => exact h
  | succ fuel ih =>
    rw [decodeLoop]
    split
    · exact h
    · split
      · exact h
      · exact ih _ (length_row_tagStep _ h)

theorem length_decodeLine (p : Params) (payload : Bytes) : (decodeLine p payload).length = p.outW :=
  length_row_decodeLoop _ _ List.length_replicate

theorem decodeLoop_of_finished {p : Params} {d : LineDec} (h : d.finished p = true) (fuel : Nat) (bs : Bytes) :
    decodeLoop p fuel bs d = d := by
  cases fuel with
  | zero => rfl
  | succ fuel => exact if_pos h

theorem foldl_tagStep_of_finished {p : Params} {d : LineDec} (h : d.finished p = true) (tags : List Instr) :
    tags.foldl (fun d i => tagStep p i d) d = d := by
  induction tags with
  | nil => rfl
  | cons i tags ih => rw [List.foldl_cons, tagStep_of_finished i h, ih]

/-- The loop does with the bytes of `tags` what their fold does, and then stops at a tail without a whole tag. -/
theorem decodeLoop_flatMap_append {p : Params} {tags : List Instr} {tail : Bytes}
    (htags : ∀ i ∈ tags, i.format = .scanlineTag ∧ WellFormed p i) (htail : decodeTag tail = none) {fuel : Nat}
    (hfuel : tags.length ≤ fuel) (d : LineDec) :
    decodeLoop p fuel (tags.flatMap (encode p) ++ tail) d = tags.foldl (fun d i => tagStep p i d) d := by
  by_cases hfin : d.finished p = true
  · rw [decodeLoop_of_finished hfin, foldl_tagStep_of_finished hfin]
  induction tags generalizing fuel d with
  | nil =>
    cases fuel with
    | zero => rfl
    | succ fuel => rw [decodeLoop, if_neg hfin, List.flatMap_nil, List.nil_append, htail, List.foldl_nil]
  | cons i tags ih =>
    obtain ⟨⟨hformat, hwf⟩, htags⟩ := List.forall_mem_cons.1 htags
    obtain ⟨fuel, rfl⟩ := Nat.exists_eq_add_of_le' (Nat.one_le_of_lt hfuel)
    rw [List.length_cons, Nat.add_le_add_iff_right] at hfuel
    rw [decodeLoop, if_neg hfin, List.flatMap_cons, List.append_assoc, decodeTag_encode p _ hformat hwf,
      List.foldl_cons]
    by_cases hnext : (tagStep p i d).finished p = true
    · exact (decodeLoop_of_finished hnext _ _).trans (foldl_tagStep_of_finished hnext tags).symm
    · exact ih htags hfuel _ hnext

/-- Every tag takes a byte. -/
theorem length_le_length_flatMap_tags {p : Params} {tags : List Instr}
    (htags : ∀ i ∈ tags, i.format = .scanlineTag ∧ WellFormed p i) :
    tags.length ≤ (tags.flatMap (encode p)).length := by
  induction tags with
  | nil => exact Nat.le_refl 0
  | cons i tags ih =>
    obtain ⟨⟨hformat, hwf⟩, htags⟩ := List.forall_mem_cons.1 htags
    have hne : encode p i ≠ [] := fun hnil => by
      have hdecode := decodeTag_encode p [] hformat hwf
      rw [hnil] at hdecode
      cases hdecode
    have hpos := List.length_pos_iff.2 hne
    have hrest := ih htags
    rw [List.flatMap_cons, List.length_append, List.length_cons]
    omega

/-- Settles O12: the payload by `decodeLoop_flatMap_append`, the instructions by `exec_scanlineTag`. -/
theorem lineDecoderRunsTags : Obligations.LineDecoderRunsTags := by
  refine ⟨fun p tags tail htags htail => ?_, fun i s htag => exec_scanlineTag s htag, length_decodeLine⟩
  have hfuel : tags.length ≤ (tags.flatMap (encode p) ++ tail).length := by
    rw [List.length_append]
    exact Nat.le_add_right_of_le (length_le_length_flatMap_tags htags)
  rw [decodeLine, decodeLoop_flatMap_append htags htail hfuel]

/-! ## The unchanged-line cache (R259) -/

/-- Writing a row of full width replaces the pixels of that row and no others. -/
theorem pixelAt_writeRow (p : Params) (m : Memory) (i : Nat) {row : Bytes} (hrow : row.length = p.outW) {y x : Nat}
    (hx : x < p.outW) : pixelAt p (m.writeBytes (i * p.outW) row) y x =
      if y = i then row.getD x Config.blankByte else pixelAt p m y x := by
  unfold pixelAt
  rw [Memory.read_writeBytes, hrow]
  rcases Nat.lt_trichotomy y i with hlt | rfl | hgt
  · have hbelow : (y + 1) * p.outW ≤ i * p.outW := Nat.mul_le_mul_right _ hlt
    rw [Nat.succ_mul] at hbelow
    rw [if_neg (by omega), if_neg (by omega)]
  · rw [if_pos (by omega), if_pos rfl, Nat.add_sub_cancel_left]
  · have habove : (i + 1) * p.outW ≤ y * p.outW := Nat.mul_le_mul_right _ hgt
    rw [Nat.succ_mul] at habove
    rw [if_neg (by omega), if_neg (by omega)]

/-- A line decoded anew is cached with its row; the rows of the other lines stand. -/
theorem decodeSlot_cacheOk {p : Params} {pi : Pipe} (h : pi.CacheOk p) (e : Nat × Bytes) :
    (decodeSlot p pi e).CacheOk p := by
  unfold decodeSlot
  split
  · exact h
  · intro i payload hfind x hx
    rw [LineMap.find_insert] at hfind
    rw [pixelAt_writeRow p _ _ (length_decodeLine p e.2) hx]
    by_cases hi : e.1 = i
    · rw [if_pos hi] at hfind
      rw [if_pos hi.symm, Option.some.inj hfind]
    · rw [if_neg hi] at hfind
      rw [if_neg (Ne.symm hi)]
      exact h i payload hfind x hx

theorem DrainMove.cacheOk {p : Params} {pi pi' : Pipe} (hmove : DrainMove p pi pi') (h : pi.CacheOk p) :
    pi'.CacheOk p := by
  cases hmove with
  | decode e => exact decodeSlot_cacheOk h e
  | store q e =>
    unfold storeFieldRow
    split
    · cases q <;> exact h
    · exact h
  | _ => exact h

theorem PipeMove.cacheOk {p : Params} {pi pi' : Pipe} (hmove : PipeMove p pi pi') (h : pi.CacheOk p) :
    pi'.CacheOk p := by
  cases hmove with
  | drain hdrain => exact hdrain.cacheOk h
  | _ => exact h

/-- Settles O58: only the decoding of a slot touches the cache and the decoded rows, and it fills both. -/
theorem stepKeepsCache : Obligations.StepKeepsCache := by
  intro s t hs hstep
  have hreach := step_reaches hstep
  rw [hreach.par]
  exact keeps_path (I := fun pi => pi.CacheOk s.par) (fun _ _ hmove => hmove.cacheOk) hreach.pipe hs

end Sys2Proof.Machine

namespace Sys2Proof.Machine

/-! ## Parameters and faults (R10, R392, R394, R424, R425) -/

theorem params_valid_iff (p : Params) : p.valid = true ↔ p.borderLines ≤ p.fieldLines ∧ p.fieldLines ≤ p.slots ∧
    1 ≤ p.vsyncMin ∧ p.vsyncMin < p.vsyncMax ∧ p.oddLo ≤ p.oddHi ∧ 1 ≤ p.interlaceHold ∧ 1 ≤ p.outW ∧
    1 ≤ p.cmdqCap ∧ 135 ≤ p.snapshotSize := by
  simp only [Params.valid, Bool.and_eq_true, decide_eq_true_eq]
  simp only [Config.slotPx, Config.minSnapshot]
  omega

theorem cutShort_ne_fault (it : Item) (s : State) (f : Fault) : cutShort it s ≠ .fault f := by
  rcases cutShort_cases it s with ⟨-, h⟩ | ⟨-, h⟩ | ⟨-, h⟩ | ⟨-, h⟩ <;> rw [h]
  · exact nofun
  · exact guarded_ne_fault _ _ _ _
  · exact nofun
  · exact nofun

theorem step_ne_fault (s : State) : SafeOutcome (step s) := by
  intro f
  rcases step_cases s with ⟨-, h⟩ | ⟨-, -, h⟩ | ⟨it, later, -, -, -, h⟩ | ⟨it, later, i, rest, -, -, -, h⟩ <;> rw [h]
  · exact nofun
  · exact nofun
  · exact cutShort_ne_fault _ _ f
  · exact exec_ne_fault _ _ f

theorem step_of_invalid {s : State} (h : s.par.valid = false) : step s = .refused .badConfig := by
  rw [step, h]
  rfl

/-- Settles O60: the parameters are fixed by `step_reaches`, and no outcome of a step is a fault. -/
theorem parametersFixedNoFault : Obligations.ParametersFixedNoFault := by
  refine ⟨fun p => ⟨params_valid_iff p, rfl, fun hvalid => ?_, fun hinvalid => ?_⟩,
    fun s => ⟨step_of_invalid, fun t hstep => (step_reaches hstep).par, step_ne_fault s⟩⟩
  · rw [construct, hvalid]
    rfl
  · rw [construct, hinvalid]
    rfl

/-! ## What an instruction does to the chip (R198, R199, R202, R400, R426) -/

/-- The instructions that reset or load the chip, or run others that may. -/
abbrev ReplacesChip (i : Instr) : Prop :=
  i = .cmdReset ∨ (∃ b, i = .cmdDemoPlayStart b) ∨ (∃ b, i = .loadSnapshot b) ∨ ∃ us env, i = .runFor us env

/-- The chip that a completed instruction leaves of chip `ch`. -/
inductive ChipRan (p : Params) (ch : Chip) (i : Instr) : Chip → Prop
  | still : ChipRan p ch i ch
  | write (j : Instr) (hj : i = j ∨ ∃ a v, i = .writeRegister a v ∧ j = decodeRegWrite p a v) :
      ChipRan p ch i (chipWrite j ch)
  | cycle : ChipRan p ch i (chipCycle p ch).1
  | source (k : Fin 4) (b : Bool) : ChipRan p ch i (setIntState k b ch)
  | tape (a b : Bool) : ChipRan p ch i { ch with tapeIn := a, tapeFb := b }
  | replaced (hi : ReplacesChip i) (ch' : Chip) : ChipRan p ch i ch'

theorem ChipRan.of_core {s t : State} (i : Instr) (h : t.core = s.core) : ChipRan s.par s.chip i t.chip := by
  obtain ⟨-, -, hchip, -⟩ := (s.core_eq_iff t).1 h
  rw [hchip]
  exact .still

theorem ChipRan.of_pipeRun {s t : State} (i : Instr) (h : PipeRun s t) : ChipRan s.par s.chip i t.chip := by
  rw [h.chip]
  exact .still

theorem chipRan_applyCommand (s : State) (c : Command) : ChipRan s.par s.chip c.toInstr (applyCommand s c).chip := by
  cases c with
  | reset => exact .replaced (.inl rfl) _
  | keyDown k => exact .of_core _ (cmdKey_core true k s)
  | keyUp k => exact .of_core _ (cmdKey_core false k s)
  | setVolume | tape | mouseDelta | setPaused => exact .still
  | demoRecordStart => exact .of_core _ (cmdRecordStart_core s)
  | demoRecordStop => exact .of_core _ (stopIfRecording_core s)
  | demoPlayStart blob => exact .replaced (.inr (.inl ⟨blob, rfl⟩)) _
  | demoPlayStop => exact .of_core _ (stopIfPlaying_core s)

theorem Ran.chipRan {s t : State} {i : Instr} (h : Ran s i t) : ChipRan s.par s.chip i t.chip := by
  cases h with
  | regWrite hi => exact .write i (.inl rfl)
  | regRead | tag | chunk | readRegister | saveSnapshot | demoBlob | requestAutodetect => exact .still
  | record hi ty payload => exact .of_core _ (dispatchEvent_core ty payload s)
  | command c => exact chipRan_applyCommand s c
  | cycle =>
    unfold advance
    have hcycle : ChipRan s.par s.chip .advanceOneCycle (chipCycle s.par s.chip).1 := .cycle
    generalize chipCycle s.par s.chip = r at hcycle ⊢
    exact hcycle
  | writeRegister a v =>
    rw [callEnv, writeReg_eq_chipWrite]
    exact .write _ (.inr ⟨a, v, rfl, rfl⟩)
  | setInt1State b => exact .source 2 b
  | setInt2State b => exact .source 3 b
  | setTapeInput b => exact .tape b _
  | setTapeFeedback b => exact .tape _ b
  | submitScanline k payload => exact .of_pipeRun _ (submitLine_run k payload s)
  | notifyFieldSync lev slot => exact .of_pipeRun _ (notifyFieldSync_run lev slot s)
  | requestFrame => exact .of_pipeRun _ (requestFrame_run s)
  | setViewport x1 y1 x2 y2 => exact .of_pipeRun _ (setViewport_run x1 y1 x2 y2 s)
  | enqueue c =>
    rcases enqueue_cases c s with ⟨-, h⟩ | ⟨-, -, h⟩ | ⟨-, -, h⟩ <;> rw [h] <;> exact .still
  | runFor us env => exact .replaced (.inr (.inr (.inr ⟨us, env, rfl⟩))) _
  | lock ms =>
    rcases lockMachine_cases ms s with ⟨-, h⟩ | ⟨-, -, h⟩ | ⟨-, -, h⟩ <;> rw [h] <;> exact .still
  | unlock =>
    rcases unlockMachine_cases s with ⟨-, h⟩ | ⟨-, h⟩ <;> rw [h] <;> exact .still
  | requestShutdown =>
    have hchip : (shutdownRequest s).chip = s.chip := (wakeFrame_run _).chip
    rw [hchip]
    exact .still
  | loadSnapshot blob => exact .replaced (.inr (.inr (.inl ⟨blob, rfl⟩))) _

theorem exec_chipRan {i : Instr} {s t : State} (h : exec i s = .next t) : ChipRan s.par s.chip i t.chip := by
  obtain ⟨u, r, hran, rfl⟩ := exec_next h
  exact hran.chipRan

/-- Of the register writes only that of the interrupt register touches the active bits (R138). -/
theorem intActive_chipWrite (j : Instr) (ch : Chip) :
    (chipWrite j ch).intActive = ch.intActive ∨ ∃ v, j = .wrIntCtl v := by
  cases j with
  | wrIntCtl v => exact .inr ⟨v, rfl⟩
  | _ => exact .inl rfl

/-- No register write sets an active bit (R138). -/
theorem intActive_of_chipWrite {j : Instr} {ch : Chip} {k : Fin 4} (h : (chipWrite j ch).intActive.get k = true) :
    ch.intActive.get k = true := by
  rcases intActive_chipWrite j ch with hsame | ⟨v, rfl⟩
  · rwa [hsame] at h
  · rw [chipWrite, wrIntCtl_eq] at h
    simp only [Quad.get_ofFn, Bool.and_eq_true] at h
    exact h.1

/-- R198: a source's new level sets its own active bit only, on a fall of an enabled source. -/
theorem intActive_setIntState (i k : Fin 4) (b : Bool) (ch : Chip) : (setIntState i b ch).intActive.get k =
    (ch.intActive.get k || (ch.intEn.get k && ch.intState.get k && !(setIntState i b ch).intState.get k)) := by
  rw [setIntState_eq]
  by_cases hk : k = i
  · simp [hk]
  · simp only [Quad.get_set_other _ i k _ hk]
    cases ch.intState.get k <;> simp

/-- A bit that is set where it was not was set by the latch. -/
theorem latched_of_rise {old new en st st' : Bool} (hnew : new = (old || (en && st && !st'))) (hlow : old = false)
    (hhigh : new = true) : st = true ∧ st' = false ∧ en = true := by
  subst hnew hlow
  simpa [and_assoc, and_comm, and_left_comm] using hhigh

/-- Settles O32: a cycle and a setter set an active bit by the latch, and no other of these operations sets one. -/
theorem edgeTriggeredLatch : Obligations.EdgeTriggeredLatch := by
  intro i s t k hi hexec hlow hhigh
  have hran := exec_chipRan hexec
  generalize t.chip = ch at hran hhigh ⊢
  cases hran with
  | still | tape =>
    rw [hlow] at hhigh
    cases hhigh
  | write j hj =>
    rw [intActive_of_chipWrite hhigh] at hlow
    cases hlow
  | cycle => exact latched_of_rise (chipCycle_intActive s.par s.chip k) hlow hhigh
  | source c b => exact latched_of_rise (intActive_setIntState c k b s.chip) hlow hhigh
  | replaced hreplaced =>
    rcases hreplaced with rfl | ⟨b, rfl⟩ | ⟨b, rfl⟩ | ⟨us, env, rfl⟩ <;> simp [Instr.format] at hi

/-- While no active bit falls the line does not (R29). -/
theorem irq_mono {ch ch' : Chip} (h : ∀ k, ch.intActive.get k = true → ch'.intActive.get k = true)
    (hirq : ch.irq = true) : ch'.irq = true := by
  simp only [Chip.irq, Bool.or_eq_true] at hirq ⊢
  exact hirq.imp (.imp (.imp (h 0) (h 1)) (h 2)) (h 3)

/-- The interrupt register is written at its one address (R92). -/
theorem eq_of_decodeRegWrite_wrIntCtl {p : Params} {a v w : Byte} (h : decodeRegWrite p a v = .wrIntCtl w) :
    a = p.portBase + 0x14#8 := by
  obtain ⟨i, f, hrow⟩ := exists_writeRow p a v
  rw [hrow.decode_eq] at h
  subst h
  cases hrow
  rfl

/-- Settles O33: but for the writes of the interrupt register and what replaces the chip, every instruction keeps the
active bits that are set. -/
theorem interruptLineFalls : Obligations.InterruptLineFalls := by
  intro i s t hexec hirq hfall
  have hran := exec_chipRan hexec
  generalize t.chip = ch at hran hfall
  have hkept (hmono : ∀ k, s.chip.intActive.get k = true → ch.intActive.get k = true) : False := by
    rw [irq_mono hmono hirq] at hfall
    cases hfall
  cases hran with
  | still | tape => exact (hkept fun _ h => h).elim
  | write j hj =>
    rcases intActive_chipWrite j s.chip with hsame | ⟨w, rfl⟩
    · exact (hkept fun k h => hsame ▸ h).elim
    · rcases hj with rfl | ⟨a, v, rfl, hdecode⟩
      · exact .inl ⟨w, rfl⟩
      · exact .inr (.inl ⟨v, by rw [eq_of_decodeRegWrite_wrIntCtl hdecode.symm]⟩)
  | cycle => exact (hkept fun k h => by rw [chipCycle_intActive, h, Bool.true_or]).elim
  | source c b => exact (hkept fun k h => by rw [intActive_setIntState, h, Bool.true_or]).elim
  | replaced hreplaced => exact .inr (.inr hreplaced)

end Sys2Proof.Machine

/-! # Decoding what was encoded (30_encoding.md)

Each front reader gives back what its writer put in front of the rest; the decoder of each of the seven formats
follows from the readers its items are made of. -/

namespace Sys2Proof.Machine

/-! ## The readers of the transport (log 2) -/

theorem takeNatGo_append_continuing {bs : Bytes} (hbs : ∀ b ∈ bs, b.getLsbD 7 = true) (d : Nat) (rest : Bytes) :
    takeNatGo d (bs ++ rest) = takeNatGo (varintValue d bs) rest := by
  induction bs generalizing d with
  | nil => rfl
  | cons b bs ih =>
    obtain ⟨hb, hbs⟩ := List.forall_mem_cons.1 hbs
    rw [List.cons_append, varintValue_cons, ← ih hbs, takeNatGo]
    exact if_neg (by rw [hb]; decide)

@[simp] theorem takeNat_varintEncode (d : Nat) (rest : Bytes) : takeNat (varintEncode d ++ rest) = some (d, rest) := by
  obtain ⟨bs, heq, hbs, hvalue, -⟩ := varintEncode_eq_append d
  rw [heq, takeNat, List.append_assoc, takeNatGo_append_continuing hbs, hvalue, List.singleton_append, takeNatGo]
  simp only [getLsbD_lastByte, toNat_lastByte_and_7F, if_pos, Nat.div_add_mod']

@[simp] theorem takeBlob_putBlob (b rest : Bytes) : takeBlob (putBlob b ++ rest) = some (b, rest) := by
  simp [takeBlob, putBlob]

theorem takeMany_flatMap {α : Type} {item : Bytes → Option (α × Bytes)} {put : α → Bytes}
    (hitem : ∀ a rest, item (put a ++ rest) = some (a, rest)) (as : List α) (rest : Bytes) :
    takeMany item as.length (as.flatMap put ++ rest) = some (as, rest) := by
  induction as with
  | nil => rfl
  | cons a as ih => simp [takeMany, hitem, ih]

theorem takeList_putList {α : Type} {item : Bytes → Option (α × Bytes)} {put : α → Bytes}
    (hitem : ∀ a rest, item (put a ++ rest) = some (a, rest)) (as : List α) (rest : Bytes) :
    takeList item (putList put as ++ rest) = some (as, rest) := by
  simp [takeList, putList, takeMany_flatMap hitem]

@[simp] theorem takeKey_putKey (k : BitVec 7) (rest : Bytes) : takeKey (putKey k ++ rest) = some (k, rest) := by
  have hlow : (k.setWidth 8).getLsbD 7 = false := by simp
  have hkey : (k.setWidth 8).extractLsb' 0 7 = k := by
    rw [BitVec.extractLsb'_setWidth_of_le (by decide), BitVec.extractLsb'_eq_self]
  rw [putKey, List.singleton_append, takeKey, hlow, hkey]
  rfl

theorem decodeCommand_encodeCommand (c : Command) (rest : Bytes) :
    decodeCommand (encodeCommand c ++ rest) = some (c, rest) := by
  cases c <;> simp [decodeCommand, encodeCommand, takeByte]

theorem decodeEnvCall_encodeEnvCall (c : EnvCall) (rest : Bytes) :
    decodeEnvCall (encodeEnvCall c ++ rest) = some (c, rest) := by
  cases c <;> simp [decodeEnvCall, encodeEnvCall, takeByte]

theorem takeList_envCalls (env : List (List EnvCall)) (rest : Bytes) :
    takeList (takeList decodeEnvCall) (putList (putList encodeEnvCall) env ++ rest) = some (env, rest) :=
  takeList_putList (takeList_putList decodeEnvCall_encodeEnvCall) env rest

/-! ## The seven formats (R90) -/

theorem exists_writeRow_encode {p : Params} {i : Instr} (hi : i.format = .regWrite) (hwf : WellFormed p i) :
    ∃ addr v f, encode p i = [addr, v] ∧ WriteRow p v addr i f := by
  cases i with
  | wrFrqLo0 v => exact ⟨_, v, _, rfl, .frqLo0⟩
  | wrFrqLo1 v => exact ⟨_, v, _, rfl, .frqLo1⟩
  | wrFrqLo2 v => exact ⟨_, v, _, rfl, .frqLo2⟩
  | wrToneCtl0 v => exact ⟨_, v, _, rfl, .toneCtl0⟩
  | wrToneCtl1 v => exact ⟨_, v, _, rfl, .toneCtl1⟩
  | wrToneCtl2 v => exact ⟨_, v, _, rfl, .toneCtl2⟩
  | wrNoiseCtl v => exact ⟨_, v, _, rfl, .noiseCtl⟩
  | wrSysCtl v => exact ⟨_, v, _, rfl, .sysCtl⟩
  | wrVolL c v => exact ⟨_, v, _, rfl, .volL c⟩
  | wrVolR c v => exact ⟨_, v, _, rfl, .volR c⟩
  | wrPage k v => exact ⟨_, v, _, rfl, .page k⟩
  | wrIntCtl v => exact ⟨_, v, _, rfl, .intCtl⟩
  | wrKbdRow v => exact ⟨_, v, _, rfl, .kbdRow⟩
  | wrB6 v => exact ⟨_, v, _, rfl, .b6⟩
  | wrReserved off v => exact ⟨_, v, _, rfl, .reserved off (of_decide_eq_true hwf)⟩
  | wrUnmapped addr v => exact ⟨_, v, _, rfl, .unmapped addr (of_decide_eq_true hwf)⟩
  | _ => cases hi

theorem exists_readRow_encode (s : State) {i : Instr} (hi : i.format = .regRead) (hwf : WellFormed s.par i) :
    ∃ addr r, encode s.par i = [addr] ∧ ReadRow s addr i r := by
  cases i with
  | rdWo off => exact ⟨_, _, rfl, .writeOnly off⟩
  | rdPage k => exact ⟨_, _, rfl, .page k⟩
  | rdIntStat => exact ⟨_, _, rfl, .intStat⟩
  | rdKbdCol => exact ⟨_, _, rfl, .kbdCol⟩
  | rdTape => exact ⟨_, _, rfl, .tape⟩
  | rdReserved off => exact ⟨_, _, rfl, .reserved off (of_decide_eq_true hwf)⟩
  | rdUnmapped addr => exact ⟨_, _, rfl, .unmapped addr (of_decide_eq_true hwf)⟩
  | _ => cases hi

theorem readEvent_cons (ty : Byte) {payload : Bytes} (hlength : payload.length < 256) (rest : Bytes) :
    readEvent (ty :: BitVec.ofNat 8 payload.length :: (payload ++ rest)) = some (ty, payload, rest) := by
  have hlen : (BitVec.ofNat 8 payload.length).toNat = payload.length := by
    rw [BitVec.toNat_ofNat, Nat.mod_eq_of_lt hlength]
  simp only [readEvent, hlen, takeBytes_append]

/-- A record reads back as the instruction of its type (R107, R108). -/
theorem decodeDemo_encodeEvent (delta : BitVec 63) (ty : Byte) {payload : Bytes} (hlength : payload.length < 256)
    (rest : Bytes) :
    decodeDemo (encodeEvent delta ty payload ++ rest) = some (demoRecord delta ty payload, rest) := by
  have hdelta : varintDecode (varintEncode delta.toNat ++ (ty :: BitVec.ofNat 8 payload.length ::
      (payload ++ rest))) = .ok (delta.toNat, ty :: BitVec.ofNat 8 payload.length :: (payload ++ rest)) :=
    varintDecode_replicate_append_encode (n := 0)
      (by rw [Nat.zero_add]; exact length_varintEncode_le delta.isLt) _
  have hbytes : encodeEvent delta ty payload ++ rest =
      varintEncode delta.toNat ++ (ty :: BitVec.ofNat 8 payload.length :: (payload ++ rest)) := by
    simp [encodeEvent]
  rw [hbytes, decodeDemo, hdelta]
  simp only [readEvent_cons ty hlength, BitVec.ofNat_toNat, BitVec.setWidth_eq]

theorem decodeDemo_encode {p : Params} {i : Instr} (hi : i.format = .demoRecord) (hwf : WellFormed p i)
    (rest : Bytes) : decodeDemo (encode p i ++ rest) = some (i, rest) := by
  cases i with
  | demoEnd delta payload | demoKeyDown delta payload | demoKeyUp delta payload =>
    exact decodeDemo_encodeEvent delta _ (of_decide_eq_true hwf) rest
  | demoUnknown delta ty payload =>
    simp only [WellFormed, Instr.wf, Bool.and_eq_true, decide_eq_true_eq] at hwf
    obtain ⟨hty, hlength⟩ := hwf
    have hunknown : demoRecord delta ty payload = .demoUnknown delta ty payload := by
      simp only [demoRecord, ← BitVec.toNat_inj, BitVec.toNat_ofNat]
      repeat rw [if_neg (by omega)]
    rw [← hunknown, ← decodeDemo_encodeEvent delta ty hlength rest, hunknown]
    rfl
  | _ => cases hi

theorem decodeCall_encode {p : Params} {i : Instr} (hi : i.format = .interface) (rest : Bytes) :
    decodeCall (encode p i ++ rest) = some (i, rest) := by
  cases i with
  | advanceOneCycle | requestFrame | requestAutodetect | unlock | requestShutdown | saveSnapshot | demoBlob => rfl
  | writeRegister a v | readRegister a => rfl
  | setInt1State b | setInt2State b | setTapeInput b | setTapeFeedback b => simp [decodeCall, encode]
  | submitScanline k payload => simp [decodeCall, encode]
  | notifyFieldSync lev slot => simp [decodeCall, encode]
  | setViewport x1 y1 x2 y2 => simp [decodeCall, encode]
  | enqueue c => simp [decodeCall, encode, decodeCommand_encodeCommand]
  | runFor us env => simp [decodeCall, encode, takeList_envCalls]
  | lock ms => simp [decodeCall, encode]
  | loadSnapshot blob => simp [decodeCall, encode]
  | _ => cases hi

/-- Every encoding but the end chunk's reads back with what stands behind it. -/
theorem decode_encode_append {p : Params} {i : Instr} (hwf : WellFormed p i)
    (hend : ∀ n trailing, i ≠ .chunkEnd n trailing) (rest : Bytes) :
    decode p i.format (encode p i ++ rest) = some (i, rest) := by
  cases hi : i.format with
  | regWrite =>
    obtain ⟨addr, v, f, hencode, hrow⟩ := exists_writeRow_encode hi hwf
    rw [hencode]
    exact congrArg (fun j => some (j, rest)) hrow.decode_eq
  | regRead =>
    obtain ⟨addr, r, hencode, hrow⟩ := exists_readRow_encode (State.construct p) hi hwf
    rw [show encode p i = [addr] from hencode]
    exact congrArg (fun j => some (j, rest)) hrow.decode_eq
  | scanlineTag => exact decodeTag_encode p rest hi hwf
  | demoRecord => exact decodeDemo_encode hi hwf rest
  | snapshotChunk =>
    obtain ⟨tag, payload, crc, htag, hlength, hencode, hchunk⟩ := IsPayloadChunk.exists_encode_eq ⟨hi, hwf, hend⟩
    rw [hencode, hchunk]
    exact decodeChunk_encodeChunk htag hlength crc rest
  | command =>
    obtain ⟨c, rfl⟩ := exists_command hi
    have hencode : encode p c.toInstr = encodeCommand c := by cases c <;> rfl
    rw [hencode, decode, decodeCommand_encodeCommand]
    rfl
  | interface => exact decodeCall_encode hi rest

/-- Settles O53: `decode_encode_append`, and `decodeChunk_tagEnd` for the end chunk. -/
theorem decodeEncode : Obligations.DecodeEncode := by
  intro p i hwf
  refine ⟨?_, fun rest hend => decode_encode_append hwf hend rest⟩
  by_cases hend : ∃ n trailing, i = .chunkEnd n trailing
  · obtain ⟨n, trailing, rfl⟩ := hend
    exact decodeChunk_tagEnd n trailing
  · rw [← List.append_nil (encode p i)]
    exact decode_encode_append hwf (fun n trailing h => hend ⟨n, trailing, h⟩) []

end Sys2Proof.Machine

/-! # Demo records, the loader's chunks and the start of playback (45_demo_log.md, 46_snapshot.md)

The dispatch of a record, the faults of a chunk at a running loader, and what DemoPlayStart makes of a blob. -/

namespace Sys2Proof.Machine

/-! ## The events at dispatch (R337 to R340) -/

theorem getLsbD_seven_iff (k : Byte) : k.getLsbD 7 = true ↔ 128 ≤ k.toNat :=
  (BitVec.msb_eq_getLsbD_last k) ▸ (BitVec.msb_eq_true_iff_two_mul_ge (x := k)).trans (by omega)

theorem toNat_extractLsb'_seven {k : Byte} (hk : k.toNat < 128) : (k.extractLsb' 0 7).toNat = k.toNat := by
  rw [BitVec.extractLsb'_toNat, Nat.shiftRight_zero]
  exact Nat.mod_eq_of_lt hk

theorem keyEvent_of_lt (down : Bool) {k : Byte} (hk : k.toNat < 128) (s : State) :
    keyEvent down [k] s = s.withKeys (setKey s.keys (k.extractLsb' 0 7) down) :=
  if_neg fun h => absurd ((getLsbD_seven_iff k).1 h) (Nat.not_le.2 hk)

theorem keyEvent_of_malformed (down : Bool) {payload : Bytes} (hbad : ∀ k, payload = [k] → 128 ≤ k.toNat) (s : State) :
    keyEvent down payload s = stopPlayback (some .badKeyEvent) s := by
  match payload with
  | [] => rfl
  | [k] => exact if_pos ((getLsbD_seven_iff k).2 (hbad k rfl))
  | _ :: _ :: _ => rfl

/-- Settles O13: `keyEvent_of_lt`, and the one bit `setKey` moves. -/
theorem demoKeyEvents : Obligations.DemoKeyEvents := by
  intro delta k s hs hk
  have hcheck := (unlockedCheck_pass s).2 hs
  refine ⟨⟨_, guardedUnit_pass (keyEvent true [k]) hcheck, ?_, fun j hj => ?_⟩,
    ⟨_, guardedUnit_pass (keyEvent false [k]) hcheck, ?_, fun j hj => ?_⟩⟩
  · rw [keyEvent_of_lt true hk]
    rfl
  · rw [keyEvent_of_lt true hk]
    refine (getLsbD_setKey s.keys _ true hj).trans ?_
    rw [toNat_extractLsb'_seven hk]
    split <;> simp [*]
  · rw [keyEvent_of_lt false hk]
    rfl
  · rw [keyEvent_of_lt false hk]
    refine (getLsbD_setKey s.keys _ false hj).trans ?_
    rw [toNat_extractLsb'_seven hk]
    split <;> simp [*]

/-- Settles O14: every stop is `stopPlayback`, with its reason. -/
theorem demoStopEvents : Obligations.DemoStopEvents := by
  intro delta ty payload s hs
  have hcheck := (unlockedCheck_pass s).2 hs
  refine ⟨guardedUnit_pass endEvent hcheck, guardedUnit_pass unknownEvent hcheck, fun hbad => ⟨?_, ?_⟩⟩
  · refine (guardedUnit_pass (keyEvent true payload) hcheck).trans ?_
    rw [keyEvent_of_malformed true hbad]
    rfl
  · refine (guardedUnit_pass (keyEvent false payload) hcheck).trans ?_
    rw [keyEvent_of_malformed false hbad]
    rfl

/-! ## A chunk at a running loader (R383) -/

theorem Loader.checked_of_ne {l : Loader} (hl : l.status = .running) {payload : Bytes} {crc : Word}
    (hcrc : crc32 payload ≠ crc) (go : Loader → Loader) : Loader.checked payload crc go l = l.fail .badChecksum := by
  rw [Loader.checked, if_pos hl, if_neg hcrc]

theorem Loader.checked_of_eq {l : Loader} (hl : l.status = .running) {payload : Bytes} {crc : Word}
    (hcrc : crc32 payload = crc) (go : Loader → Loader) : Loader.checked payload crc go l = go l := by
  rw [Loader.checked, if_pos hl, if_pos hcrc]

theorem loadChip_of_ne {l : Loader} (hl : l.status = .running) {payload : Bytes} {crc : Word}
    (hcrc : crc32 payload ≠ crc) : loadChip payload crc l = l.fail .badChecksum := Loader.checked_of_ne hl hcrc _

theorem loadDemo_of_ne {l : Loader} (hl : l.status = .running) {payload : Bytes} {crc : Word}
    (hcrc : crc32 payload ≠ crc) : loadDemo payload crc l = l.fail .badChecksum := Loader.checked_of_ne hl hcrc _

theorem loadChip_of_staged {l : Loader} (hl : l.status = .running) {payload : Bytes} {crc : Word}
    (hcrc : crc32 payload = crc) (hstaged : l.staged.isSome = true) :
    loadChip payload crc l = l.fail .duplicateChunk :=
  (Loader.checked_of_eq hl hcrc _).trans (if_pos hstaged)

theorem loadChip_of_decodeChip {l : Loader} (hl : l.status = .running) (hstaged : l.staged = none) {payload : Bytes}
    {crc : Word} (hcrc : crc32 payload = crc) : loadChip payload crc l = match decodeChip payload with
      | .ok ch => { l with staged := some ch }
      | .error e => l.fail e :=
  (Loader.checked_of_eq hl hcrc _).trans (if_neg (by rw [hstaged]; decide))

theorem loadChip_ok {l : Loader} (hl : l.status = .running) (hstaged : l.staged = none) {payload : Bytes} {crc : Word}
    (hcrc : crc32 payload = crc) {ch : Chip} (hdecode : decodeChip payload = .ok ch) :
    loadChip payload crc l = { l with staged := some ch } := by
  rw [loadChip_of_decodeChip hl hstaged hcrc, hdecode]

theorem loadChip_error {l : Loader} (hl : l.status = .running) (hstaged : l.staged = none) {payload : Bytes}
    {crc : Word} (hcrc : crc32 payload = crc) {e : FaultCode} (hdecode : decodeChip payload = .error e) :
    loadChip payload crc l = l.fail e := by
  rw [loadChip_of_decodeChip hl hstaged hcrc, hdecode]

theorem loadDemo_of_logged {l : Loader} (hl : l.status = .running) {payload : Bytes} {crc : Word}
    (hcrc : crc32 payload = crc) (hlog : l.log.isSome = true) : loadDemo payload crc l = l.fail .duplicateChunk :=
  (Loader.checked_of_eq hl hcrc _).trans (if_pos hlog)

theorem loadDemo_ok {l : Loader} (hl : l.status = .running) {payload : Bytes} {crc : Word}
    (hcrc : crc32 payload = crc) (hlog : l.log = none) : loadDemo payload crc l = { l with log := some payload } :=
  (Loader.checked_of_eq hl hcrc _).trans (if_neg (by rw [hlog]; decide))

/-- The four bytes at an offset of a payload that ends behind them are the rest of it. -/
theorem drop_eq_byteAt {b : Bytes} (hlength : b.length = 111) :
    b.drop 107 = [byteAt b 107, byteAt b 108, byteAt b 109, byteAt b 110] := by
  refine List.ext_getElem (by simp [hlength]) fun j hj _ => ?_
  rw [List.length_drop, hlength] at hj
  rw [List.getElem_drop]
  match j, hj with
  | 0, _ | 1, _ | 2, _ | 3, _ => simp [byteAt, List.getD_eq_getElem?_getD, hlength]

theorem decodeChip_of_length_ne {payload : Bytes} (hlength : payload.length ≠ 111) :
    decodeChip payload = .error .chunkLength := if_pos hlength

/-- R375, the selector bytes as what stands behind the fields. -/
theorem decodeChip_of_length {payload : Bytes} (hlength : payload.length = 111) : decodeChip payload =
    if selBytes (chipFields payload) = payload.drop 107 then .ok (chipFields payload)
    else .error .selectorMismatch := by
  rw [drop_eq_byteAt hlength]
  exact if_neg (not_not_intro hlength)

/-- R364: the eight turns of a byte. -/
theorem crcByte_eq (r : Word) (x : Byte) : crcByte r x = (List.range 8).foldl
    (fun (r : Word) _ => if r.getLsbD 0 = true then (r >>> 1) ^^^ 0xEDB88320#32 else r >>> 1) (r ^^^ x.setWidth 32) :=
  rfl

/-- Settles O17: the recurrence is `crcByte_eq`; each fault is the branch of `Loader.checked`, `loadChip`, `loadDemo`
or `decodeChip` its conditions select. -/
theorem chunkFaults : Obligations.ChunkFaults := by
  refine ⟨fun b => congrArg (fun step => b.foldl step 0xFFFFFFFF#32 ^^^ 0xFFFFFFFF#32)
      (funext₂ crcByte_eq), by decide +kernel, by decide +kernel, by decide +kernel,
    fun payload crc tag s hl => ⟨fun hcrc i hi => ?_, fun hcrc => ⟨fun hstaged => ?_, fun hstaged hlength => ?_,
      fun hstaged hlength hsel => ?_, fun hlog => ?_⟩⟩⟩
  · have hfail : chunkStep i s.loader = s.loader.fail .badChecksum := by
      rcases hi with rfl | rfl | rfl | rfl
      · exact loadChip_of_ne hl hcrc
      · exact loadDemo_of_ne hl hcrc
      · exact Loader.checked_of_ne hl hcrc id
      · exact Loader.checked_of_ne hl hcrc id
    have hformat : i.format = .snapshotChunk := by rcases hi with rfl | rfl | rfl | rfl <;> rfl
    rw [exec_snapshotChunk hformat, hfail]
    rfl
  · rw [exec_snapshotChunk rfl, chunkStep, loadChip_of_staged hl hcrc hstaged]
    rfl
  · rw [exec_snapshotChunk rfl, chunkStep, loadChip_error hl hstaged hcrc (decodeChip_of_length_ne hlength)]
    rfl
  · have hdecode := (decodeChip_of_length hlength).trans (if_neg hsel)
    rw [exec_snapshotChunk rfl, chunkStep, loadChip_error hl hstaged hcrc hdecode]
    rfl
  · rw [exec_snapshotChunk rfl, chunkStep, loadDemo_of_logged hl hcrc hlog]
    rfl

/-- Settles O18, by the lemma of each chunk. -/
theorem otherChunks : Obligations.OtherChunks := by
  intro payload tag n trailing s hl
  refine ⟨fun hlog => ?_, ?_, ?_, fun hn => ?_, fun hbytes => ?_, fun hbytes => ?_⟩
  · rw [exec_snapshotChunk rfl, chunkStep, loadDemo_ok hl rfl hlog]
  · rw [exec_snapshotChunk rfl, chunkStep, loadMach, Loader.checked_of_eq hl rfl]
    rfl
  · rw [exec_snapshotChunk rfl, chunkStep, loadUnknown, Loader.checked_of_eq hl rfl]
    rfl
  · rw [exec_snapshotChunk rfl, chunkStep, loadEnd_of_ne hl hn]
    rfl
  · rw [exec_snapshotChunk rfl, chunkStep, loadEnd_of_nonzero hl (n := 0) rfl hbytes]
    rfl
  · rw [exec_snapshotChunk rfl, chunkStep, loadEnd_of_zeros hl (n := 0) rfl hbytes]

/-! ## The start of playback (R307, R347) -/

/-- The stops in front of a load change nothing of it: the load makes them itself. -/
theorem loadSnapshot_stopped (blob : Bytes) (s : State) :
    loadSnapshot blob (stopIfPlaying (stopIfRecording s)) = loadSnapshot blob s := by
  have hidle : s.demo.bothStopped.bothStopped = s.demo.bothStopped := by
    unfold Demo.bothStopped
    cases hmode : s.demo.mode <;> simp [Demo.recordingStopped, hmode]
  have hbegin : loadBegin (stopIfPlaying (stopIfRecording s)) = loadBegin s := by
    rw [loadBegin_eq, loadBegin_eq, stopIfPlaying_stopIfRecording]
    exact congrArg (fun d => { s with chip := Chip.reset, keys := 0, demo := d }) hidle
  simp only [loadSnapshot, hbegin]

theorem playLoop_of_not_due {s : State} (h : ¬(s.demo.mode = .playing ∧ s.demo.countdown = 0)) (fuel : Nat) :
    playLoop fuel s = s := by
  cases fuel with
  | zero => rfl
  | succ fuel => exact if_neg h

theorem playLoop_of_not_playing {s : State} (h : s.demo.mode ≠ .playing) (fuel : Nat) : playLoop fuel s = s :=
  playLoop_of_not_due (fun hdue => h hdue.1) fuel

theorem mode_stopPlayback_ne (e : Option FaultCode) (s : State) : (stopPlayback e s).demo.mode ≠ .playing := nofun

/-- The bytes of a word read from four bytes are those four. -/
theorem be32_ofBE32 (a b c d : Byte) : be32 (ofBE32 a b c d) = [a, b, c, d] := by
  simp only [be32, ofBE32, List.cons.injEq, and_true]
  refine ⟨?_, ?_, ?_, ?_⟩ <;> ext j hj <;> grind

theorem versionOk_iff (p : Params) (log : Bytes) : versionOk p log = true ↔ log.take 4 = be32 p.demoVersion := by
  match log with
  | [] | [_] | [_, _] | [_, _, _] => exact ⟨nofun, nofun⟩
  | a :: b :: c :: d :: rest =>
    have htake : takeBE32 (a :: b :: c :: d :: rest) = some (ofBE32 a b c d, rest) := rfl
    rw [versionOk, htake]
    refine beq_iff_eq.trans ⟨fun h => ?_, fun h => ?_⟩
    · rw [← h, be32_ofBE32]
      rfl
    · obtain ⟨rfl, rfl, rfl, rfl⟩ : _ ∧ _ ∧ _ ∧ _ := by simpa [be32] using h
      exact ofBE32_extract _

theorem cmdPlayStart_of_error {s : State} {blob : Bytes} {e : FaultCode} (hread : readSnapshot s.par blob = .error e) :
    cmdPlayStart blob s = { s with
      chip := Chip.reset
      keys := 0
      demo := { s.demo.bothStopped with mode := .idle, lastError := some e } } := by
  simp only [cmdPlayStart, startPlayback, loadSnapshot_stopped, loadSnapshot_of_error hread]
  rfl

/-- The state playback starts from: the snapshot's chip, released keys, the log committed and playing. -/
abbrev State.startedPlaying (s : State) (ch : Chip) (log : Bytes) : State := { s with
  chip := ch
  keys := 0
  demo := { s.demo.bothStopped with mode := .playing, playBuf := log, committed := some log, lastError := none } }

theorem cmdPlayStart_of_log {s : State} {blob log : Bytes} {ch : Chip}
    (hread : readSnapshot s.par blob = .ok (ch, some log)) : cmdPlayStart blob s =
      if versionOk s.par log then playDue (readDelta 4 (s.startedPlaying ch log))
      else stopPlayback (some .badVersion) (s.startedPlaying ch log) := by
  simp only [cmdPlayStart, startPlayback, loadSnapshot_stopped, loadSnapshot_of_ok hread]
  rfl

theorem readDelta_of_error {s : State} {pos : Nat} {e : FaultCode}
    (hdecode : varintDecode (s.demo.playBuf.drop pos) = .error e) : readDelta pos s = stopPlayback (some e) s := by
  rw [readDelta, hdecode]

theorem readDelta_of_ok {s : State} {pos d : Nat} {rest : Bytes}
    (hdecode : varintDecode (s.demo.playBuf.drop pos) = .ok (d, rest)) : readDelta pos s = s.withDemo
      { s.demo with countdown := d, playPos := s.demo.playBuf.length - rest.length } := by
  rw [readDelta, hdecode]

/-- Settles O24: `cmdPlayStart_of_log` up to the first delta, which `readDelta` reads behind the version; a delta of 0
is due at once, as in a tick of a countdown that is used up. -/
theorem playStart : Obligations.PlayStart := by
  intro s blob log ch hs hread started
  have hplay := cmdPlayStart_of_log hread
  refine ⟨fun hversion => ?_, ?_, ?_⟩
  · rw [if_neg (mt (versionOk_iff s.par log).1 hversion)] at hplay
    exact exec_command (.demoPlayStart blob) hs hplay
  · rintro tail e rfl hdecode
    have hstop := readDelta_of_error (s := started) (pos := 4) hdecode
    rw [if_pos ((versionOk_iff _ _).2 rfl), hstop, playDue, playLoop_of_not_playing (mode_stopPlayback_ne _ _)] at hplay
    exact exec_command (.demoPlayStart blob) hs hplay
  · rintro d delta rest rfl hdecode primed
    have hprimed : readDelta 4 started = primed := by
      have hlength : started.demo.playBuf.length - rest.length = 4 + delta.length := by
        simp only [started, List.length_append, be32_length]
        omega
      rw [readDelta_of_ok (s := started) (pos := 4) hdecode, hlength]
      rfl
    rw [if_pos ((versionOk_iff _ _).2 rfl), hprimed] at hplay
    by_cases hd : d = 0
    · subst hd
      exact exec_command (.demoPlayStart blob) hs hplay
    · rw [playDue, playLoop_of_not_due fun h => hd h.2] at hplay
      rw [if_neg hd]
      exact exec_command (.demoPlayStart blob) hs hplay

/-- Settles O25, by the state the failed load leaves. -/
theorem playStartFailure : Obligations.PlayStartFailure := by
  intro s blob hs
  refine ⟨fun e hread => exec_command (.demoPlayStart blob) hs (cmdPlayStart_of_error hread), fun ch hread => ?_⟩
  refine exec_command (.demoPlayStart blob) hs (t := { s with
    chip := Chip.reset
    keys := 0
    demo := { s.demo.bothStopped with mode := .idle, committed := none, lastError := some .noDemoChunk } }) ?_
  have hidle : s.demo.bothStopped.mode = .idle := by
    unfold Demo.bothStopped
    cases hmode : s.demo.mode <;> simp [Demo.recordingStopped, hmode]
  simp only [applyCommand, cmdPlayStart, startPlayback, loadSnapshot_stopped, loadSnapshot_of_ok hread]
  exact congrArg (fun m => { s with
    chip := Chip.reset
    keys := 0
    demo := { s.demo.bothStopped with mode := m, committed := none, lastError := some .noDemoChunk } }) hidle

end Sys2Proof.Machine

/-! # The chip chunk and the snapshot's round trip (46_snapshot.md R373 to R376, R386)

A field read at the offset where it was written is the field, up to the normalisation of the counters; a save is a
blob of the chip chunk, the log's chunk if there is one, and an end chunk with zeros behind it. -/

namespace Sys2Proof.Machine

/-! ## A field at the offset where it was written -/

/-- `piece` stands in `b` at offset `k`. -/
def Holds (b : Bytes) (k : Nat) (piece : Bytes) : Prop := ∀ j, j < piece.length → byteAt b (k + j) = byteAt piece j

theorem holds_nil (b : Bytes) (k : Nat) : Holds b k [] ↔ True := ⟨fun _ => trivial, fun _ => nofun⟩

theorem holds_cons (b : Bytes) (k : Nat) (x : Byte) (xs : Bytes) :
    Holds b k (x :: xs) ↔ byteAt b k = x ∧ Holds b (k + 1) xs := by
  refine ⟨fun h => ⟨h 0 (Nat.zero_lt_succ _), fun j hj => ?_⟩, fun ⟨hx, hxs⟩ j hj => ?_⟩
  · rw [Nat.add_assoc, Nat.add_comm 1 j]
    exact h (j + 1) (Nat.succ_lt_succ hj)
  · cases j with
    | zero => exact hx
    | succ j =>
      rw [Nat.add_comm j 1, ← Nat.add_assoc, hxs j (Nat.lt_of_succ_lt_succ hj), Nat.add_comm 1 j]
      rfl

theorem holds_append (b : Bytes) (k : Nat) (xs ys : Bytes) :
    Holds b k (xs ++ ys) ↔ Holds b k xs ∧ Holds b (k + xs.length) ys := by
  induction xs generalizing k with
  | nil => simp [holds_nil]
  | cons x xs ih => rw [List.cons_append, holds_cons, holds_cons, ih, and_assoc, List.length_cons, Nat.add_right_comm,
      Nat.add_assoc]

theorem holds_self (b : Bytes) : Holds b 0 b := fun j _ => by rw [Nat.zero_add]

theorem boolByte_ne_zero (c : Bool) : (boolByte c != 0#8) = c := by cases c <;> rfl

theorem boolAt_of_byteAt {b : Bytes} {k : Nat} {c : Bool} (h : byteAt b k = boolByte c) : boolAt b k = c := by
  rw [boolAt, h, boolByte_ne_zero]

theorem boolsAt_of_holds {b : Bytes} {k : Nat} {q : Quad Bool} (h : Holds b k (boolBytes q)) : boolsAt b k = q := by
  simp only [boolBytes, holds_cons] at h
  obtain ⟨h0, h1, h2, h3, -⟩ := h
  have hq : boolsAt b k = ⟨boolAt b k, boolAt b (k + 1), boolAt b (k + 2), boolAt b (k + 3)⟩ := rfl
  rw [hq, boolAt_of_byteAt h0, boolAt_of_byteAt h1, boolAt_of_byteAt h2, boolAt_of_byteAt h3]

theorem setWidth_of_eq {w n : Nat} {x : BitVec n} {v : BitVec w} (h : x = v.setWidth n) (hw : w ≤ n) :
    x.setWidth w = v := by
  rw [h, BitVec.setWidth_setWidth_of_le _ hw, BitVec.setWidth_eq]

theorem volsAt_of_holds {b : Bytes} {k : Nat} {q : Quad (BitVec 6)} (h : Holds b k (volBytes q)) : volsAt b k = q := by
  simp only [volBytes, holds_cons] at h
  obtain ⟨h0, h1, h2, h3, -⟩ := h
  have hq : volsAt b k = ⟨(byteAt b k).setWidth 6, (byteAt b (k + 1)).setWidth 6, (byteAt b (k + 2)).setWidth 6,
    (byteAt b (k + 3)).setWidth 6⟩ := rfl
  rw [hq, setWidth_of_eq h0 (by decide), setWidth_of_eq h1 (by decide), setWidth_of_eq h2 (by decide),
    setWidth_of_eq h3 (by decide)]

theorem halfAt_of_holds {b : Bytes} {k : Nat} {v : Half} (h : Holds b k (be16 v)) : halfAt b k = v := by
  simp only [be16, holds_cons] at h
  obtain ⟨h0, h1, -⟩ := h
  rw [halfAt, h0, h1, ofBE16_extract]

theorem wordAt_of_holds {b : Bytes} {k : Nat} {v : Word} (h : Holds b k (be32 v)) : wordAt b k = v := by
  simp only [be32, holds_cons] at h
  obtain ⟨h0, h1, h2, h3, -⟩ := h
  rw [wordAt, h0, h1, h2, h3, ofBE32_extract]

theorem codesAt_of_holds {b : Bytes} {k : Nat} {t : Tri (BitVec 12)} (h : Holds b k (codeBytes t)) :
    codesAt b k = t := by
  simp only [codeBytes, holds_append, List.length_append, be16_length] at h
  obtain ⟨⟨h0, h1⟩, h2⟩ := h
  rw [codesAt, setWidth_of_eq (halfAt_of_holds h0) (by decide), setWidth_of_eq (halfAt_of_holds h1) (by decide),
    setWidth_of_eq (halfAt_of_holds h2) (by decide)]

@[simp] theorem length_boolBytes (q : Quad Bool) : (boolBytes q).length = 4 := rfl
@[simp] theorem length_volBytes (q : Quad (BitVec 6)) : (volBytes q).length = 4 := rfl
@[simp] theorem length_codeBytes (t : Tri (BitVec 12)) : (codeBytes t).length = 6 := rfl

/-- A counter below its modulus survives its field and its normalisation. -/
theorem toNat_ofNat_mod {w n m : Nat} {x : BitVec w} (hx : x = BitVec.ofNat w n) (hn : n < m) (hm : m ≤ 2 ^ w) :
    x.toNat % m = n := by
  rw [hx, BitVec.toNat_ofNat, Nat.mod_eq_of_lt (Nat.lt_of_lt_of_le hn hm), Nat.mod_eq_of_lt hn]

theorem vlenLen_le (w : BitVec 2) : vlenLen w ≤ 2 ^ 32 := by
  rcases twoBits_cases w with rfl | rfl | rfl | rfl <;> decide

/-- Every field of a chip in its ranges is read back from where it was written (R373). -/
theorem chipFields_of_holds {b : Bytes} {ch : Chip} (h : Holds b 0 (encodeChip ch)) (hranges : ch.Ranges) :
    chipFields b = ch := by
  obtain ⟨h4, h5, h7, hv⟩ := hranges
  unfold encodeChip at h
  simp only [List.append_assoc, List.cons_append, List.nil_append] at h
  simp only [holds_append, holds_cons, length_boolBytes, length_volBytes, length_codeBytes, be16_length, be32_length,
    Nat.reduceAdd] at h
  obtain ⟨hfrq, hdist0, hdist1, hdist2, hhp, hrm, hphase, hosc0, hosc1, hosc2, hnclk, hvlsel, hswap, hlp3, hfixPhase,
    hfixOsc, hclkPrev, hlpHold, hraw, hrawPrev, hmPrev, hhpLatch, hout, hvolL, hvolR, hdac, hp4, hp5, hp7, hpv, hintEn,
    hintState, hintActive, hsndSel, hsndPhase, honeHz, hpage0, hpage1, hpage2, hpage3, hkbdRow, htapeIn, htapeFb,
    -⟩ := h
  rw [chipFields]
  simp only [codesAt_of_holds hfrq, setWidth_of_eq hdist0 (by decide), setWidth_of_eq hdist1 (by decide),
    setWidth_of_eq hdist2 (by decide), boolsAt_of_holds hhp, boolsAt_of_holds hrm, codesAt_of_holds hphase,
    boolAt_of_byteAt hosc0, boolAt_of_byteAt hosc1, boolAt_of_byteAt hosc2, setWidth_of_eq hnclk (by decide),
    setWidth_of_eq hvlsel (by decide), boolAt_of_byteAt hswap, boolAt_of_byteAt hlp3, wordAt_of_holds hfixPhase,
    boolAt_of_byteAt hfixOsc, boolAt_of_byteAt hclkPrev, boolAt_of_byteAt hlpHold, boolsAt_of_holds hraw,
    boolsAt_of_holds hrawPrev, boolsAt_of_holds hmPrev, boolsAt_of_holds hhpLatch, boolsAt_of_holds hout,
    volsAt_of_holds hvolL, volsAt_of_holds hvolR, boolsAt_of_holds hdac,
    toNat_ofNat_mod (halfAt_of_holds hp4) h4 (by decide), toNat_ofNat_mod (halfAt_of_holds hp5) h5 (by decide),
    toNat_ofNat_mod (halfAt_of_holds hp7) h7 (by decide), toNat_ofNat_mod (wordAt_of_holds hpv) hv (vlenLen_le _),
    boolsAt_of_holds hintEn, boolsAt_of_holds hintState, boolsAt_of_holds hintActive,
    setWidth_of_eq hsndSel (by decide), wordAt_of_holds hsndPhase, wordAt_of_holds honeHz, hpage0, hpage1, hpage2, hpage3,
    setWidth_of_eq hkbdRow (by decide), boolAt_of_byteAt htapeIn, boolAt_of_byteAt htapeFb]

theorem chipFields_encodeChip {ch : Chip} (hranges : ch.Ranges) : chipFields (encodeChip ch) = ch :=
  chipFields_of_holds (holds_self _) hranges

/-- The four selector bytes stand behind the fields, at offset 107. -/
theorem drop_encodeChip (ch : Chip) : (encodeChip ch).drop 107 = selBytes ch := by
  obtain ⟨fields, hfields⟩ : ∃ fields, encodeChip ch = fields ++ selBytes ch := ⟨_, rfl⟩
  have hlength := length_encodeChip ch
  rw [hfields, List.length_append, show (selBytes ch).length = 4 from rfl] at hlength
  rw [hfields]
  exact List.drop_left' (by omega)

theorem decodeChip_encodeChip {ch : Chip} (hranges : ch.Ranges) : decodeChip (encodeChip ch) = .ok ch := by
  rw [decodeChip_of_length (length_encodeChip ch), chipFields_encodeChip hranges, drop_encodeChip, if_pos rfl]

/-! ## The normalisations of R373 in numbers -/

theorem boolAt_eq (b : Bytes) (k : Nat) : boolAt b k = decide ((byteAt b k).toNat ≠ 0) := by
  rw [Bool.eq_iff_iff, boolAt, bne_iff_ne, decide_eq_true_iff]
  exact not_congr BitVec.toNat_inj.symm

theorem toNat_halfAt (b : Bytes) (k : Nat) :
    (halfAt b k).toNat = (byteAt b k).toNat * 256 + (byteAt b (k + 1)).toNat := by
  rw [halfAt, ofBE16, BitVec.toNat_append, ← Nat.shiftLeft_add_eq_or_of_lt (byteAt b (k + 1)).isLt, Nat.shiftLeft_eq]

theorem toNat_wordAt (b : Bytes) (k : Nat) :
    (wordAt b k).toNat = (halfAt b k).toNat * 65536 + (halfAt b (k + 2)).toNat := by
  rw [show wordAt b k = halfAt b k ++ halfAt b (k + 2) from rfl, BitVec.toNat_append,
    ← Nat.shiftLeft_add_eq_or_of_lt (halfAt b (k + 2)).isLt, Nat.shiftLeft_eq]

theorem get_codesAt (b : Bytes) (k : Nat) (c : Fin 3) :
    (codesAt b k).get c = (halfAt b (k + 2 * c.val)).setWidth 12 := by
  match c with
  | 0 | 1 | 2 => rfl

theorem get_boolsAt (b : Bytes) (k : Nat) (c : Fin 4) : (boolsAt b k).get c = boolAt b (k + c.val) := by
  match c with
  | 0 | 1 | 2 | 3 => rfl

theorem toNat_get_volsAt (b : Bytes) (k : Nat) (c : Fin 4) :
    ((volsAt b k).get c).toNat = (byteAt b (k + c.val)).toNat % 64 := by
  have hget : (volsAt b k).get c = (byteAt b (k + c.val)).setWidth 6 := by
    match c with
    | 0 | 1 | 2 | 3 => rfl
  rw [hget]
  exact BitVec.toNat_setWidth _ _

/-- R42: the width of the table a tone channel reads, by its distortion. -/
theorem toNat_selByte_tone (ch : Chip) (c : Fin 3) : (selByte ch (selTone ch c)).toNat =
    [0, 4, 5, if ch.swap = true then vlen ch.vlsel else 7].getD (ch.dist.get c).toNat 0 := by
  have hvlen : (BitVec.ofNat 8 (vlen ch.vlsel)).toNat = vlen ch.vlsel := by
    rcases twoBits_cases ch.vlsel with h | h | h | h <;> rw [h] <;> rfl
  unfold selTone
  rcases twoBits_cases (ch.dist.get c) with h | h | h | h
  · simp [h, selByte]
  · simp [h, selByte]
  · simp [h, selByte]
  · cases hswap : ch.swap <;> simp [h, selByte, hvlen]

theorem toNat_selByte_noise (ch : Chip) :
    (selByte ch (selNoise ch)).toNat = if ch.swap = true then 7 else vlen ch.vlsel := by
  have hvlen : (BitVec.ofNat 8 (vlen ch.vlsel)).toNat = vlen ch.vlsel := by
    rcases twoBits_cases ch.vlsel with h | h | h | h <;> rw [h] <;> rfl
  unfold selNoise
  cases ch.swap
  · exact hvlen
  · rfl

/-- R375 in numbers: each selector byte is the width its channel's fields select. -/
theorem selBytes_eq_drop_iff {b : Bytes} (hlength : b.length = 111) (ch : Chip) : selBytes ch = b.drop 107 ↔
    ((byteAt b 107).toNat = (selByte ch (selTone ch 0)).toNat ∧
      (byteAt b 108).toNat = (selByte ch (selTone ch 1)).toNat ∧
      (byteAt b 109).toNat = (selByte ch (selTone ch 2)).toNat ∧
      (byteAt b 110).toNat = (selByte ch (selNoise ch)).toNat) := by
  rw [drop_eq_byteAt hlength, selBytes]
  simp only [List.cons.injEq, and_true, BitVec.toNat_inj, eq_comm (a := selByte ch _)]

/-- Settles O16: the round trip by `decodeChip_encodeChip`; any other payload by its fields in numbers, the selector
check by `selBytes_eq_drop_iff`. -/
theorem chipChunkRoundTrip : Obligations.ChipChunkRoundTrip := by
  refine ⟨fun ch s hranges hl hstaged => ⟨length_encodeChip ch, ?_⟩, ?_⟩
  · rw [exec_snapshotChunk rfl, chunkStep, loadChip_ok hl hstaged rfl (decodeChip_encodeChip hranges)]
  intro b s hlength hl hstaged u8 u16 u32 flag vl width selected
  have hflag (k : Nat) : boolAt b k = flag k := boolAt_eq b k
  have hhalf (k : Nat) : (halfAt b k).toNat = u16 k := toNat_halfAt b k
  have hword (k : Nat) : (wordAt b k).toNat = u32 k := by rw [toNat_wordAt, hhalf, hhalf]
  have hvlsel : (chipFields b).vlsel.toNat = u8 27 % 4 := BitVec.toNat_setWidth _ _
  have hvlen : vlen (chipFields b).vlsel = vl := by rw [vlen_eq, hvlsel]
  have hdist (c : Fin 3) : ((chipFields b).dist.get c).toNat = u8 (6 + c.val) % 4 := by
    have hget : (chipFields b).dist.get c = (byteAt b (6 + c.val)).setWidth 2 := by
      match c with
      | 0 | 1 | 2 => rfl
    rw [hget]
    exact BitVec.toNat_setWidth _ _
  have hselected : selBytes (chipFields b) = b.drop 107 ↔ selected := by
    rw [selBytes_eq_drop_iff hlength, toNat_selByte_noise, toNat_selByte_tone, toNat_selByte_tone, toNat_selByte_tone,
      hdist, hdist, hdist, hvlen, show (chipFields b).swap = flag 28 from hflag 28]
    exact Iff.rfl
  have hdecode := decodeChip_of_length hlength
  refine ⟨fun hsel => ?_, fun hsel => ⟨chipFields b, ?_, fun c => ⟨?_, hdist c, ?_, ?_⟩, fun c => ?_, ?_⟩⟩
  · rw [if_neg (mt hselected.1 hsel)] at hdecode
    rw [exec_snapshotChunk rfl, chunkStep, loadChip_error hl hstaged rfl hdecode]
    rfl
  · rw [if_pos (hselected.2 hsel)] at hdecode
    rw [exec_snapshotChunk rfl, chunkStep, loadChip_ok hl hstaged rfl hdecode]
  · rw [show (chipFields b).frq.get c = _ from get_codesAt b 0 c, Nat.zero_add, ← hhalf]
    exact BitVec.toNat_setWidth _ _
  · rw [show (chipFields b).phase.get c = _ from get_codesAt b 17 c, ← hhalf]
    exact BitVec.toNat_setWidth _ _
  · rw [← hflag]
    match c with
    | 0 | 1 | 2 => rfl
  · simp only [← hflag]
    refine ⟨get_boolsAt b 9 c, get_boolsAt b 13 c, get_boolsAt b 37 c, get_boolsAt b 41 c, get_boolsAt b 45 c,
      get_boolsAt b 49 c, get_boolsAt b 53 c, toNat_get_volsAt b 57 c, toNat_get_volsAt b 61 c, get_boolsAt b 65 c,
      get_boolsAt b 79 c, get_boolsAt b 83 c, get_boolsAt b 87 c, ?_⟩
    match c with
    | 0 | 1 | 2 | 3 => rfl
  · simp only [← hflag, ← hhalf, ← hword, ← hvlen]
    exact ⟨BitVec.toNat_setWidth _ _, hvlsel, rfl, rfl, rfl, rfl, rfl, rfl, rfl, rfl, rfl, rfl,
      BitVec.toNat_setWidth _ _, rfl, rfl, BitVec.toNat_setWidth _ _, rfl, rfl⟩

/-! ## The round trip of a save (R386) -/

/-- What `padBlob` gives has the blob's size, and zeros behind its content. -/
theorem exists_zeros_of_padBlob {p : Params} {content b : Bytes} (h : padBlob p content = some b) :
    b.length = p.snapshotSize ∧ ∃ n, b = content ++ List.replicate n 0#8 := by
  rw [padBlob_eq] at h
  split at h
  · next hfits =>
    cases h
    refine ⟨?_, _, rfl⟩
    rw [List.length_append, List.length_replicate]
    omega
  · cases h

/-- The chunks in front of the end chunk of a save (R382). -/
def savedChunks (ch : Chip) (log : Option Bytes) : List Instr :=
  .chunkChip (encodeChip ch) (crc32 (encodeChip ch)) :: (log.map fun b => Instr.chunkDemo b (crc32 b)).toList

theorem encode_chunkChip (p : Params) (payload : Bytes) (crc : Word) :
    encode p (.chunkChip payload crc) = encodeChunk Config.tagChip payload crc := rfl

theorem encode_chunkDemo (p : Params) (payload : Bytes) (crc : Word) :
    encode p (.chunkDemo payload crc) = encodeChunk Config.tagDemo payload crc := rfl

theorem flatMap_encode_savedChunks (p : Params) (ch : Chip) (log : Option Bytes) :
    (savedChunks ch log).flatMap (encode p) = chunkBytes Config.tagChip (encodeChip ch) ++ demoChunk log := by
  rw [savedChunks, List.flatMap_cons, encode_chunkChip, ← chunkBytes]
  cases log with
  | none => rfl
  | some b =>
    rw [Option.map_some, Option.toList_some, List.flatMap_cons, encode_chunkDemo, List.flatMap_nil, List.append_nil]
    rfl

theorem isPayloadChunk_chunkChip (p : Params) {payload : Bytes} (crc : Word) (hlength : payload.length < 2 ^ 32) :
    IsPayloadChunk p (.chunkChip payload crc) := ⟨rfl, decide_eq_true hlength, nofun⟩

theorem isPayloadChunk_chunkDemo (p : Params) {payload : Bytes} (crc : Word) (hlength : payload.length < 2 ^ 32) :
    IsPayloadChunk p (.chunkDemo payload crc) := ⟨rfl, decide_eq_true hlength, nofun⟩

theorem isPayloadChunk_of_mem_savedChunks (p : Params) (ch : Chip) {log : Option Bytes}
    (hlog : ∀ b, log = some b → b.length < 2 ^ 32) : ∀ i ∈ savedChunks ch log, IsPayloadChunk p i := by
  have hchip : (encodeChip ch).length < 2 ^ 32 := by
    rw [length_encodeChip]
    decide
  refine List.forall_mem_cons.2 ⟨isPayloadChunk_chunkChip p _ hchip, fun i hi => ?_⟩
  obtain ⟨b, hb, rfl⟩ := Option.map_eq_some_iff.1 (Option.mem_toList.1 hi)
  exact isPayloadChunk_chunkDemo p _ (hlog b hb)

/-- The loader behind the chunks of a save has staged what was saved. -/
theorem foldl_savedChunks {ch : Chip} (hranges : ch.Ranges) (log : Option Bytes) :
    (savedChunks ch log).foldl (fun l i => chunkStep i l) Loader.start = ⟨some ch, log, .running⟩ := by
  have hchip : loadChip (encodeChip ch) (crc32 (encodeChip ch)) Loader.start = ⟨some ch, none, .running⟩ :=
    loadChip_ok rfl rfl rfl (decodeChip_encodeChip hranges)
  rw [savedChunks, List.foldl_cons, chunkStep, hchip]
  cases log with
  | none => rfl
  | some b => exact loadDemo_ok (l := ⟨some ch, none, .running⟩) rfl rfl rfl

theorem readSnapshot_of_saveBlob {p : Params} {ch : Chip} {log : Option Bytes} {b : Bytes} (hranges : ch.Ranges)
    (hlog : ∀ b, log = some b → b.length < 2 ^ 32) (hsave : saveBlob p ch log = some b) :
    readSnapshot p b = .ok (ch, log) := by
  obtain ⟨hlength, n, rfl⟩ := exists_zeros_of_padBlob hsave
  have hbytes : be32 p.snapshotVersion ++ chunkBytes Config.tagChip (encodeChip ch) ++ demoChunk log ++ endBytes ++
      List.replicate n 0#8 = be32 p.snapshotVersion ++ ((savedChunks ch log).flatMap (encode p) ++
        (be32 Config.tagEnd ++ be32 0#32 ++ List.replicate n 0#8)) := by
    rw [flatMap_encode_savedChunks, endBytes]
    simp only [List.append_assoc]
  rw [hbytes] at hlength ⊢
  obtain ⟨fuel, hread⟩ := readSnapshot_chunks hlength (isPayloadChunk_of_mem_savedChunks p ch hlog)
  have hzeros : ∀ x ∈ List.replicate n 0#8, x = 0#8 := fun x hx => List.eq_of_mem_replicate hx
  rw [hread, foldl_savedChunks hranges, runChunks_end rfl rfl, loadEnd_of_zeros rfl rfl hzeros]
  rfl

/-- Settles O49: the load reads back what `readSnapshot_of_saveBlob` says the save holds. -/
theorem snapshotRoundTrip : Obligations.SnapshotRoundTrip := by
  intro s u b hranges hlog hs hsave hpar hu
  have hread : readSnapshot u.par b = .ok (s.chip, s.demo.committed) :=
    readSnapshot_of_saveBlob hranges hlog (hpar ▸ hsave)
  refine ⟨?_, ?_⟩
  · rw [exec_saveSnapshot hs, hsave]
  · rw [exec_loadSnapshot hu, loadSnapshot_of_ok hread]

end Sys2Proof.Machine

/-! # The queue, the wait and the lock (43_frame_pipeline.md, 44_sync_commands.md)

What waking a `requestFrame` may leave, a line's submission as its two appends, a drain event by event, and the
three ways a run begins. -/

namespace Sys2Proof.Machine

/-! ## Waking the waiting call (R270, R272, R322) -/

theorem Woken.of_not_waiting {s t : State} (h : Woken s t) (hwait : s.pipe.waitLeft = none) : t = s := h.1 hwait

theorem wakeFrame_woken (s : State) : Woken s (wakeFrame s) := by
  rcases wakeFrame_cases s with ⟨hnone, hwake⟩ | ⟨left, hleft, hwake⟩
  · exact ⟨fun _ => hwake, fun left hleft => absurd (hnone.symm.trans hleft) nofun⟩
  · refine ⟨fun hnone => absurd (hnone.symm.trans hleft) nofun, fun left' hleft' => ?_⟩
    obtain rfl : left = left' := Option.some.inj (hleft.symm.trans hleft')
    obtain hwake | hwake := hwake
    · exact .inl hwake
    rw [hwake]
    rcases frameRound_cases left (s.withDraws (s.draws + 1)) with ⟨hready, h⟩ | ⟨hready, hshut, h⟩ |
      ⟨hready, hshut, -, h⟩ | ⟨hready, hshut, hms, h⟩ <;> rw [h]
    · exact .inr (.inl ⟨hready, rfl⟩)
    · exact .inr (.inr (.inl ⟨hready, hshut, rfl⟩))
    · exact .inr (.inr (.inr ⟨hready, hshut, .inl rfl⟩))
    · exact .inr (.inr (.inr ⟨hready, hshut, .inr ⟨_, Nat.sub_pos_of_lt hms, Nat.sub_le _ _, rfl⟩⟩))

/-- The producer's fields, the parameters and the synchronizer, which a woken call leaves as they were. -/
def State.producer (s : State) : Params × Sync × Bool × Nat × Bool :=
  (s.par, s.sync, s.pipe.vsyncState, s.pipe.vsyncCnt, s.pipe.oddPending)

theorem Woken.producer_eq {s t : State} (h : Woken s t) : t.producer = s.producer := by
  obtain ⟨hnone, hsome⟩ := h
  cases hwait : s.pipe.waitLeft with
  | none => rw [hnone hwait]
  | some left =>
    obtain ⟨hstate, hcnt, hodd, -⟩ := drain_outer s.par s.pipe
    have hdrained : (s.withPipe (drain s.par s.pipe)).producer = s.producer := by
      simp only [State.producer, State.withPipe_par, State.withPipe_sync, State.withPipe_pipe, hstate, hcnt, hodd]
    obtain rfl | ⟨-, rfl⟩ | ⟨-, -, rfl⟩ | ⟨-, -, rfl | ⟨_, -, -, rfl⟩⟩ := hsome left hwait
    · rfl
    · exact hdrained
    · exact hdrained
    · exact hdrained
    · exact hdrained

/-! ## The submission of a line (R250 to R252) -/

theorem fieldComplete_iff (p : Params) (pi : Pipe) : fieldComplete p pi = true ↔
    0 < pi.vsyncCnt ∧ (p.vsyncMin ≤ pi.vsyncCnt ∧ pi.vsyncState = false ∨ p.vsyncMax ≤ pi.vsyncCnt) := by
  simp only [fieldComplete, Bool.and_eq_true, Bool.or_eq_true, decide_eq_true_eq, Bool.not_eq_true']

theorem countLine_eq (pi : Pipe) :
    countLine pi = { pi with vsyncCnt := if pi.vsyncCnt = 0 then 0 else pi.vsyncCnt + 1 } := by
  unfold countLine
  by_cases hcnt : pi.vsyncCnt = 0
  · rw [if_pos hcnt, if_neg (by omega)]
  · rw [if_neg hcnt, if_pos (by omega)]

theorem appendEvent_eq (q : List Event) (s : State) : appendEvent q s = wakeFrame { s with
    pipe := { s.pipe with evq := q }
    sync := { s.sync with shutSeen := s.sync.shutSeen || s.sync.shutdown } } := rfl

/-- An append by a machine context that has seen the shutdown has nothing more to see. -/
theorem appendEvent_of_seen {s : State} (hseen : (s.sync.shutSeen || s.sync.shutdown) = s.sync.shutSeen)
    (q : List Event) : appendEvent q s = wakeFrame { s with pipe := { s.pipe with evq := q } } := by
  rw [appendEvent_eq, hseen]

/-- Behind the append of a line that leaves `u`: the count, and the FrameDone where the field is complete (R252). -/
theorem completeField_countedLine (u : State) :
    let cnt := if u.pipe.vsyncCnt = 0 then 0 else u.pipe.vsyncCnt + 1
    let complete := 0 < cnt ∧ (u.par.vsyncMin ≤ cnt ∧ u.pipe.vsyncState = false ∨ u.par.vsyncMax ≤ cnt)
    (complete → completeField (countedLine u) =
      appendEvent (boundEvq u.par (u.pipe.evq ++ [.frameDone u.pipe.oddPending]))
        (u.withPipe { u.pipe with vsyncCnt := 0 })) ∧
    (¬complete → completeField (countedLine u) = u.withPipe { u.pipe with vsyncCnt := cnt }) := by
  intro cnt complete
  have hcounted : countedLine u = u.withPipe { u.pipe with vsyncCnt := cnt } := by rw [countedLine, countLine_eq]
  have hcomplete := fieldComplete_iff u.par { u.pipe with vsyncCnt := cnt }
  rw [hcounted, completeField]
  exact ⟨fun h => (if_pos (hcomplete.2 h)).trans rfl, fun h => if_neg (mt hcomplete.1 h)⟩

theorem exec_submitScanline {s : State} (hs : s.MachineFree) (i : Nat) (payload : Bytes) :
    exec (.submitScanline i payload) s = .next { submitLine i payload s with result := .unit } :=
  guardedUnit_pass (submitLine i payload) ((unlockedCheck_pass s).2 hs)

/-- Settles O34: the bound by `boundEvq_of_some`, the submission as the two appends of `submitLine_of_lt` and
`completeField_countedLine`, each of which wakes. -/
theorem submitScanline : Obligations.SubmitScanline := by
  refine ⟨fun p q => ⟨fun hnone => boundEvq_of_none hnone q, fun n hsome => boundEvq_of_some hsome q⟩, ?_⟩
  refine fun i payload s hs => ⟨fun hi => ?_, ?_⟩
  · rw [exec_submitScanline hs, submitLine, if_pos hi]
  intro older current hi hevq hcurrent holder cnt queue sync complete
  have hqueue : supersede i s.pipe.evq ++ [.line i payload] = queue := by rw [hevq, supersede_append i hcurrent holder]
  have hseen : (sync.shutSeen || sync.shutdown) = sync.shutSeen := by
    change (s.sync.shutSeen || s.sync.shutdown || s.sync.shutdown) = (s.sync.shutSeen || s.sync.shutdown)
    rw [Bool.or_assoc, Bool.or_self]
  have hexec := exec_submitScanline hs i payload
  rw [submitLine_of_lt hi, hqueue, appendEvent_eq] at hexec
  have hu := wakeFrame_woken { s with pipe := { s.pipe with evq := queue }, sync := sync }
  generalize wakeFrame { s with pipe := { s.pipe with evq := queue }, sync := sync } = u at hexec hu
  have hproducer := hu.producer_eq
  simp only [State.producer, Prod.mk.injEq] at hproducer
  obtain ⟨hpar, hsync, hstate, hcnt, hodd⟩ := hproducer
  obtain ⟨hdone, hmore⟩ := completeField_countedLine u
  rw [hpar, hstate, hcnt, hodd] at hdone
  rw [hpar, hstate, hcnt] at hmore
  have hlast : complete → ∃ v, Woken { u with
      pipe := { u.pipe with
        evq := boundEvq s.par (u.pipe.evq ++ [.frameDone s.pipe.oddPending]), vsyncCnt := 0 } } v ∧
      exec (.submitScanline i payload) s = .next { v with result := .unit } := fun hcomplete => by
    refine ⟨_, wakeFrame_woken _, ?_⟩
    rw [hexec, hdone hcomplete, appendEvent_of_seen (by rw [State.withPipe_sync, hsync, hseen])]
    rfl
  have hplain : ¬complete → exec (.submitScanline i payload) s =
      .next { u with pipe := { u.pipe with vsyncCnt := cnt }, result := .unit } := fun hcomplete => by
    rw [hexec, hmore hcomplete]
    rfl
  refine ⟨fun hwait => ?_, u, hu, hlast, hplain⟩
  obtain rfl := hu.of_not_waiting hwait
  refine ⟨fun hcomplete => ?_, hplain⟩
  obtain ⟨v, hv, hrun⟩ := hlast hcomplete
  rw [hrun, hv.of_not_waiting hwait]

/-! ## A drain event by event, and the call that drains (R254, R270 to R272) -/

theorem drain_of_nil (p : Params) {pi : Pipe} (hevq : pi.evq = []) : drain p pi = pi := by
  have hsame : ({ pi with evq := [] } : Pipe) = pi := by rw [← hevq]
  rw [drain, hevq, hsame, List.foldl_nil]

theorem drain_of_line (p : Params) {pi : Pipe} {i : Nat} {payload : Bytes} {q : List Event}
    (hevq : pi.evq = .line i payload :: q) :
    drain p pi = drain p { pi with evq := q, slots := LineMap.insert pi.slots i payload } := by
  rw [drain, hevq, List.foldl_cons]
  rfl

/-- The field end does not look at the queue. -/
theorem frameDone_withQueue (p : Params) (odd : Bool) (pi : Pipe) (q : List Event) :
    frameDone p odd { pi with evq := q } = { frameDone p odd pi with evq := q } := by
  have hdecode (pi : Pipe) : decodeChanged p { pi with evq := q } = { decodeChanged p pi with evq := q } := by
    refine List.foldl_hom (fun pi : Pipe => { pi with evq := q }) fun pi e => ?_
    unfold decodeSlot
    split <;> rfl
  have hstore (pi : Pipe) : storeFieldRows p odd { pi with evq := q } = { storeFieldRows p odd pi with evq := q } := by
    refine List.foldl_hom (fun pi : Pipe => { pi with evq := q }) fun pi e => ?_
    unfold storeFieldRow
    split
    · cases odd <;> rfl
    · rfl
  have hstored : storedField p odd { pi with evq := q } = { storedField p odd pi with evq := q } := by
    rw [storedField, storedField, ← hstore, ← hdecode]
    rfl
  rw [frameDone_eq, frameDone_eq, hstored, fieldEnd_eq, fieldEnd_eq]
  rfl

theorem drain_of_frameDone (p : Params) {pi : Pipe} {odd : Bool} {q : List Event}
    (hevq : pi.evq = .frameDone odd :: q) : drain p pi = drain p (frameDone p odd { pi with evq := q }) := by
  rw [drain, hevq, List.foldl_cons, frameDone_withQueue]
  exact congrArg (q.foldl (handleEvent p)) (frameDone_withQueue p odd pi [])

theorem exec_requestFrame {s : State} (hs : s.caller = .host) :
    exec .requestFrame s = .next { (requestFrame s).1 with result := (requestFrame s).2 } :=
  guarded_pass requestFrame ((hostCheck_pass s).2 hs)

/-- A call made while another waits ends that one with nothing first (log 11). -/
theorem requestFrame_of_waiting {s : State} (hwait : s.pipe.waitLeft ≠ none) :
    requestFrame s = requestFrame (returnFrame none s) := by
  have hended : ¬(returnFrame none s).pipe.waitLeft.isSome = true := Bool.false_ne_true
  rw [requestFrame, requestFrame, if_pos (Option.isSome_iff_ne_none.2 hwait), if_neg hended]

/-- What a call returns after its round. -/
def roundResult : Option (Option Frame) → Result
  | some f => .frame f
  | none => .waiting

/-- With none waiting the call is one round with the whole timeout. -/
theorem exec_requestFrame_of_frameRound {s t : State} (hs : s.caller = .host) (hwait : s.pipe.waitLeft = none)
    {r : Option (Option Frame)} (hround : frameRound s.par.frameTimeoutMs s = (t, r)) :
    exec .requestFrame s = .next { t with result := roundResult r } := by
  have hcall : requestFrame s = (t, roundResult r) := by
    unfold requestFrame
    simp only [hwait, Option.isSome_none, Bool.false_eq_true, if_false, hround]
    cases r <;> rfl
  rw [exec_requestFrame hs, hcall]

/-- Settles O36: the drain by its lemma for each event, the call by the four ends of its round. -/
theorem requestFrame_holds : Obligations.RequestFrame := by
  refine ⟨fun par f y x => ⟨fun table htable => ?_, fun hnone => ?_⟩, fun par pi hevq => drain_of_nil par hevq,
    fun par pi i payload q hevq => ⟨_, drain_of_line par hevq, ?_, fun j hj => ?_⟩,
    fun par pi odd q hevq => drain_of_frameDone par hevq, fun s hs hwait => ?_, ?_⟩
  · rw [Frame.hostPixelAt, hostPixel, htable]
    rfl
  · rw [Frame.hostPixelAt, hostPixel, hnone]
    rfl
  · rw [LineMap.find_insert, if_pos rfl]
  · rw [LineMap.find_insert, if_neg (Ne.symm hj)]
  · rw [exec_requestFrame hs, exec_requestFrame (s := { s with
      pipe := { s.pipe with waitLeft := none }, outbox := .frame none :: s.outbox }) hs, requestFrame_of_waiting hwait]
    rfl
  intro s hs hwait p
  have hidle : ({ p with waitLeft := none } : Pipe) = p := by
    obtain ⟨-, -, -, -, -, hdrained⟩ := drain_outer s.par s.pipe
    rw [← hdrained.trans hwait]
  rcases frameRound_cases s.par.frameTimeoutMs s with ⟨hpos, h⟩ | ⟨hzero, hshut, h⟩ | ⟨hzero, hshut, -, h⟩ |
      ⟨hzero, hshut, hms, h⟩
  · refine ⟨fun _ => ?_, fun hzero => absurd hzero (Nat.ne_of_gt hpos), fun hzero => absurd hzero (Nat.ne_of_gt hpos)⟩
    rw [exec_requestFrame_of_frameRound hs hwait h]
    conv_rhs => rw [← hidle]
    rfl
  · refine ⟨fun hpos => absurd hzero (Nat.ne_of_gt hpos), fun _ _ => ?_,
      fun _ hno => absurd (hshut.symm.trans hno) nofun⟩
    rw [exec_requestFrame_of_frameRound hs hwait h]
    conv_rhs => rw [← hidle]
    rfl
  · refine ⟨fun hpos => absurd hzero (Nat.ne_of_gt hpos), fun _ hyes => absurd (hshut.symm.trans hyes) nofun, fun _ _ =>
      ⟨_, exec_requestFrame_of_frameRound hs hwait h, rfl, .inl ⟨rfl, rfl, rfl⟩⟩⟩
  · refine ⟨fun hpos => absurd hzero (Nat.ne_of_gt hpos), fun _ hyes => absurd (hshut.symm.trans hyes) nofun, fun _ _ =>
      ⟨_, exec_requestFrame_of_frameRound hs hwait h, rfl, .inr ⟨rfl, rfl, _, rfl, ?_, Nat.sub_le _ _⟩⟩⟩
    exact Nat.sub_pos_of_lt hms

/-! ## The lock and the shutdown (R320 to R322) -/

theorem exec_lock {s : State} (hs : s.caller = .host) (ms : Nat) :
    exec (.lock ms) s = .next { (lockMachine ms s).1 with result := .bool (lockMachine ms s).2 } :=
  guarded_pass (fun s => ((lockMachine ms s).1, .bool (lockMachine ms s).2)) ((hostCheck_pass s).2 hs)

theorem lockMachine_of_held {s : State} (hheld : s.sync.lockHeld = true) (ms : Nat) :
    lockMachine ms s = (s, false) := if_pos hheld

/-- A free lock is taken or times out, as the draw says (log 10). -/
theorem exists_lockMachine_of_free {s : State} (hfree : s.sync.lockHeld = false) (ms : Nat) : ∃ b, lockMachine ms s =
    ({ s with sync := { s.sync with lockHeld := b }, draws := s.draws + 1 }, b) := by
  rcases lockMachine_cases ms s with ⟨hheld, -⟩ | ⟨-, -, h⟩ | ⟨-, -, h⟩
  · rw [hfree] at hheld
    cases hheld
  · have hsync : ({ s.sync with lockHeld := false } : Sync) = s.sync := by rw [← hfree]
    exact ⟨false, by rw [h, hsync]; rfl⟩
  · exact ⟨true, h⟩

/-- Settles O46: the lock by its draw, the shutdown by `wakeFrame_woken`. -/
theorem lockAndShutdown : Obligations.LockAndShutdown := by
  intro ms s hs
  have hcheck := (hostCheck_pass s).2 hs
  have hunlock : exec .unlock s = .next { unlockMachine s with result := .unit } :=
    guardedUnit_pass unlockMachine hcheck
  have hshutdown : exec .requestShutdown s = .next { shutdownRequest s with result := .unit } :=
    guardedUnit_pass shutdownRequest hcheck
  have hwoken := wakeFrame_woken { s with sync := { s.sync with shutdown := true } }
  refine ⟨fun hheld => ?_, fun hfree => ?_, fun hheld => ?_, fun hfree => ?_, fun hwait => ?_, _, hwoken, hshutdown⟩
  · rw [exec_lock hs, lockMachine_of_held hheld]
  · obtain ⟨b, hb⟩ := exists_lockMachine_of_free hfree ms
    exact ⟨b, by rw [exec_lock hs, hb]⟩
  · rw [hunlock, unlockMachine, if_pos hheld]
    rfl
  · rw [hunlock, unlockMachine, if_neg (by rw [hfree]; decide)]
  · rw [hshutdown, show shutdownRequest s = _ from hwoken.of_not_waiting hwait]

/-! ## How a run begins (R314, R323) -/

theorem exec_runFor {s : State} (hs : s.caller = .machine) (us : Nat) (env : List (List EnvCall)) :
    exec (.runFor us env) s = .next { runFor us env s with result := .unit } :=
  guardedUnit_pass (runFor us env) ((machineCheck_pass s).2 hs)

/-- The queue taken, with what the machine context then sees of the shutdown. -/
def State.spliced (s : State) : State :=
  { s with sync := { s.sync with cmdq := [], shutSeen := s.sync.shutSeen || s.sync.shutdown } }

theorem runFor_of_held {s : State} (hheld : s.sync.lockHeld = true) (us : Nat) (env : List (List EnvCall)) :
    runFor us env s = s := if_pos hheld

/-- Without a shutdown the run applies the queue and runs the budget. -/
theorem runFor_of_no_shutdown {s : State} (hfree : s.sync.lockHeld = false) (hshut : s.sync.shutdown = false) (us : Nat)
    (env : List (List EnvCall)) :
    runFor us env s =
      runBudget us env (s.sync.cmdq.foldl applyCommand { s with sync := { s.sync with cmdq := [] } }) := by
  have hread : readShutdown s = (false, s) := if_pos hshut
  have hspliced : s.spliced = { s with sync := { s.sync with cmdq := [] } } := by
    rw [State.spliced, hshut, Bool.or_false]
  rw [← hspliced, runFor, if_neg (by rw [hfree]; decide), hread]
  rfl

theorem shutdownMachine_eq (s : State) : shutdownMachine s = { s with
    keys := if s.demo.mode = .playing then 0 else s.keys
    demo := s.demo.bothStopped
    sync := { s.sync with cmdq := [], shutSeen := true } } := by
  rw [shutdownMachine, stopIfPlaying_stopIfRecording]
  rfl

theorem runFor_of_seen {s : State} (hfree : s.sync.lockHeld = false) (hshut : s.sync.shutdown = true)
    (hseen : s.sync.shutSeen = true) (us : Nat) (env : List (List EnvCall)) :
    runFor us env s = shutdownMachine s := by
  have hread : readShutdown s = (true, s) :=
    (if_neg (by rw [hshut]; decide)).trans (if_pos hseen)
  rw [runFor, if_neg (by rw [hfree]; decide), hread]
  rfl

/-- With a shutdown that is not seen yet, a draw says whether the run sees it (log 12). -/
theorem runFor_of_unseen {s : State} (hfree : s.sync.lockHeld = false) (hshut : s.sync.shutdown = true)
    (hseen : s.sync.shutSeen = false) (us : Nat) (env : List (List EnvCall)) :
    runFor us env s = shutdownMachine (s.withDraws (s.draws + 1)) ∨
    runFor us env s = runBudget us env (s.sync.cmdq.foldl applyCommand { s with
      sync := { s.sync with cmdq := [], shutSeen := true }, draws := s.draws + 1 }) := by
  rcases readShutdown_cases s with ⟨h, -⟩ | ⟨-, h, -⟩ | ⟨-, -, hread⟩
  · rw [hshut] at h
    cases h
  · rw [hseen] at h
    cases h
  rw [runFor, if_neg (by rw [hfree]; decide), hread]
  cases Config.draw s.draws with
  | true => exact .inl rfl
  | false =>
    have hspliced : (s.withDraws (s.draws + 1)).spliced = { s with
        sync := { s.sync with cmdq := [], shutSeen := true }, draws := s.draws + 1 } := by
      rw [State.spliced, State.withDraws_sync, hshut, Bool.or_true]
      rfl
    rw [← hspliced]
    exact .inr rfl

/-- Settles O42, by the lemma of each way a run begins. -/
theorem runForWithoutCycles : Obligations.RunForWithoutCycles := by
  intro us env s hs
  refine ⟨fun hheld => ?_, fun hshut hfree hpaused hcmdq => ?_, fun hfree hshut hseen => ?_⟩
  · rw [exec_runFor hs, runFor_of_held hheld]
  · have hsame : ({ s with sync := { s.sync with cmdq := [] } } : State) = s := by rw [← hcmdq]
    rw [exec_runFor hs, runFor_of_no_shutdown hfree hshut, hcmdq, List.foldl_nil, hsame, runBudget, if_pos hpaused]
  · rw [exec_runFor hs, runFor_of_seen hfree hshut hseen, shutdownMachine_eq, ← hseen]

/-- Settles O43: each command by `exec_command`, the run by the lemma of its shutdown. -/
theorem runForAppliesCommands : Obligations.RunForAppliesCommands := by
  refine ⟨fun c s hs => exec_command c hs rfl, ?_⟩
  intro us env s hs ran
  have hran (cmds : List Command) {u : State} (hpar : u.par = s.par) :
      runBudget us env (cmds.foldl applyCommand u) = ran (cmds.foldl applyCommand u) := by
    have hsame := (Reaches.foldl applyCommand_reaches cmds u).par.trans hpar
    rw [runBudget, budgetTotal, hsame]
    rfl
  refine ⟨fun hshut => ?_, ?_⟩
  · rw [exec_runFor hs.1, runFor_of_no_shutdown hs.2 hshut, hran]
    rfl
  · intro hshut hseen seen
    rw [exec_runFor hs.1]
    rcases runFor_of_unseen hs.2 hshut hseen us env with hrun | hrun
    · refine .inl ?_
      rw [hrun, shutdownMachine_eq]
      rfl
    · refine .inr ?_
      rw [hrun, hran]
      rfl

end Sys2Proof.Machine

/-! # The rows of a finished field (43_frame_pipeline.md R256, R257, R259)

The two folds over the received lines: the decoding fills the cache and counts, the storing copies decoded rows. -/

namespace Sys2Proof.Machine

/-! ## Decoding the received lines (R256) -/

/-- Decoded or not, the line's payload is its last one afterwards. -/
theorem find_lastPayload_decodeSlot (p : Params) (pi : Pipe) (e : Nat × Bytes) (i : Nat) :
    LineMap.find (decodeSlot p pi e).lastPayload i = if e.1 = i then some e.2 else LineMap.find pi.lastPayload i := by
  unfold decodeSlot
  split
  · next hsame =>
    split
    · next hi => rw [← hi, hsame]
    · rfl
  · exact LineMap.find_insert _ _ _ _

theorem decodeCount_decodeSlot (p : Params) (pi : Pipe) (e : Nat × Bytes) : (decodeSlot p pi e).decodeCount =
    pi.decodeCount + if LineMap.find pi.lastPayload e.1 = some e.2 then 0 else 1 := by
  unfold decodeSlot
  split <;> rfl

/-- In a canonical line map the lines behind one have greater indices. -/
theorem find_eq_none_of_forall_lt {m : LineMap} {i : Nat} (h : ∀ e ∈ m, i < e.1) : LineMap.find m i = none := by
  induction m with
  | nil => rfl
  | cons e m ih =>
    obtain ⟨he, hm⟩ := List.forall_mem_cons.1 h
    rw [LineMap.find, if_neg (Nat.ne_of_gt he), ih hm]

theorem find_lastPayload_foldl (p : Params) {slots : LineMap} (hwf : slots.wf) (pi : Pipe) (i : Nat) :
    LineMap.find (slots.foldl (decodeSlot p) pi).lastPayload i =
      (LineMap.find slots i).or (LineMap.find pi.lastPayload i) := by
  induction slots generalizing pi with
  | nil => rfl
  | cons e slots ih =>
    obtain ⟨hlater, hwf⟩ := List.pairwise_cons.1 hwf
    rw [List.foldl_cons, ih hwf, find_lastPayload_decodeSlot, LineMap.find]
    by_cases hi : e.1 = i
    · rw [if_pos hi, if_pos hi, find_eq_none_of_forall_lt (hi ▸ hlater)]
      rfl
    · rw [if_neg hi, if_neg hi]

/-- One decoding for each line whose payload is not the one last decoded for it. -/
theorem decodeCount_foldl (p : Params) {slots : LineMap} (hwf : slots.wf) (pi : Pipe) :
    (slots.foldl (decodeSlot p) pi).decodeCount = pi.decodeCount +
      (slots.filter fun e => decide (LineMap.find pi.lastPayload e.1 ≠ some e.2)).length := by
  induction slots generalizing pi with
  | nil => rfl
  | cons e slots ih =>
    obtain ⟨hlater, hwf⟩ := List.pairwise_cons.1 hwf
    have hrest : (slots.filter fun f => decide (LineMap.find (decodeSlot p pi e).lastPayload f.1 ≠ some f.2)) =
        slots.filter fun f => decide (LineMap.find pi.lastPayload f.1 ≠ some f.2) := by
      refine List.filter_congr fun f hf => ?_
      rw [find_lastPayload_decodeSlot, if_neg (Nat.ne_of_lt (hlater f hf))]
    rw [List.foldl_cons, ih hwf, hrest, decodeCount_decodeSlot, List.filter_cons]
    by_cases hsame : LineMap.find pi.lastPayload e.1 = some e.2
    · simp [hsame]
    · simp [hsame]
      omega

theorem foldl_decodeSlot_cacheOk {p : Params} (slots : List (Nat × Bytes)) {pi : Pipe} (h : pi.CacheOk p) :
    (slots.foldl (decodeSlot p) pi).CacheOk p := by
  induction slots generalizing pi with
  | nil => exact h
  | cons e slots ih => exact ih (decodeSlot_cacheOk h e)

/-! ## Storing them in the field's rows (R257) -/

theorem decoded_storeFieldRow (p : Params) (q : Bool) (pi : Pipe) (e : Nat × Bytes) :
    (storeFieldRow p q pi e).decoded = pi.decoded := by
  unfold storeFieldRow
  split
  · cases q <;> rfl
  · rfl

theorem rows_not_storeFieldRow (p : Params) (q : Bool) (pi : Pipe) (e : Nat × Bytes) :
    (storeFieldRow p q pi e).rows (!q) = pi.rows (!q) := by
  unfold storeFieldRow
  split
  · cases q <;> rfl
  · rfl

theorem pixelAt_storeFieldRow {p : Params} (q : Bool) (pi : Pipe) (e : Nat × Bytes) {i x : Nat} (hi : i < p.fieldLines)
    (hx : x < p.outW) : pixelAt p ((storeFieldRow p q pi e).rows q) i x =
      if e.1 = i then pixelAt p pi.decoded i x else pixelAt p (pi.rows q) i x := by
  unfold storeFieldRow
  by_cases he : e.1 < p.fieldLines
  · have hrows : (pi.setRows q (copyRow p (pi.rows q) e.1 pi.decoded e.1)).rows q =
        copyRow p (pi.rows q) e.1 pi.decoded e.1 := by cases q <;> rfl
    rw [if_pos he, hrows, pixelAt_copyRow _ _ _ _ _ hx]
    by_cases hline : e.1 = i
    · rw [if_pos hline, if_pos hline.symm, hline]
    · rw [if_neg hline, if_neg (Ne.symm hline)]
  · rw [if_neg he, if_neg (by omega)]

theorem rows_not_foldl (p : Params) (q : Bool) (slots : List (Nat × Bytes)) (pi : Pipe) :
    (slots.foldl (storeFieldRow p q) pi).rows (!q) = pi.rows (!q) := by
  induction slots generalizing pi with
  | nil => rfl
  | cons e slots ih => rw [List.foldl_cons, ih, rows_not_storeFieldRow]

/-- A received line has its decoded row, any other the row it had. -/
theorem pixelAt_foldl_storeFieldRow {p : Params} (q : Bool) (slots : LineMap) (pi : Pipe) {i x : Nat}
    (hi : i < p.fieldLines) (hx : x < p.outW) : pixelAt p ((slots.foldl (storeFieldRow p q) pi).rows q) i x =
      if (LineMap.find slots i).isSome = true then pixelAt p pi.decoded i x else pixelAt p (pi.rows q) i x := by
  induction slots generalizing pi with
  | nil => rfl
  | cons e slots ih =>
    rw [List.foldl_cons, ih, decoded_storeFieldRow, pixelAt_storeFieldRow q pi e hi hx, LineMap.find]
    by_cases hline : e.1 = i
    · rw [if_pos hline, if_pos hline, ite_self]
      rfl
    · rw [if_neg hline, if_neg hline]

/-! ## The field end -/

/-- R258 and R260 touch neither the rows nor the cache. -/
theorem frameDone_rows (p : Params) (odd : Bool) (pi : Pipe) :
    (frameDone p odd pi).rows = (storedField p odd pi).rows ∧
    (frameDone p odd pi).lastPayload = (storedField p odd pi).lastPayload ∧
    (frameDone p odd pi).decodeCount = (storedField p odd pi).decodeCount := by
  rw [frameDone_eq, fieldEnd_eq]
  exact ⟨rfl, rfl, rfl⟩

/-- The storing fold runs over the lines received, and leaves the cache as the decoding fold left it. -/
theorem storedField_eq (p : Params) (odd : Bool) (pi : Pipe) :
    let decoded := pi.slots.foldl (decodeSlot p) (stepInterlace p odd pi)
    storedField p odd pi = pi.slots.foldl (storeFieldRow p odd) decoded ∧
    (storedField p odd pi).lastPayload = decoded.lastPayload ∧
    (storedField p odd pi).decodeCount = decoded.decodeCount := by
  intro decoded
  obtain ⟨lines, cache, count, hdecode⟩ := decodeChanged_frame p (stepInterlace p odd pi)
  obtain ⟨even, odd', hstore⟩ := storeFieldRows_frame p odd decoded
  have hslots : decoded.slots = pi.slots := by
    rw [show decoded = _ from hdecode]
    rfl
  have hfold : storedField p odd pi = storeFieldRows p odd decoded := rfl
  refine ⟨?_, ?_, ?_⟩
  · rw [hfold, storeFieldRows, hslots]
  · rw [hfold, hstore]
  · rw [hfold, hstore]

/-- Settles O37, by the two folds. -/
theorem fieldRows : Obligations.FieldRows := by
  rintro p odd pi ⟨hslots, -⟩ hcache
  obtain ⟨hrows, hlast, hcount⟩ := frameDone_rows p odd pi
  obtain ⟨hstored, hstoredLast, hstoredCount⟩ := storedField_eq p odd pi
  have hdecodedRows : (pi.slots.foldl (decodeSlot p) (stepInterlace p odd pi)).rows = pi.rows := by
    obtain ⟨lines, cache, count, hdecode⟩ := decodeChanged_frame p (stepInterlace p odd pi)
    rw [show pi.slots.foldl (decodeSlot p) (stepInterlace p odd pi) = _ from hdecode]
    rfl
  have hfind (i : Nat) : LineMap.find (frameDone p odd pi).lastPayload i =
      (LineMap.find pi.slots i).or (LineMap.find pi.lastPayload i) := by
    rw [hlast, hstoredLast, find_lastPayload_foldl p hslots]
    rfl
  refine ⟨fun i x hi hx => ?_, ?_, ?_, fun i => ?_⟩
  · rw [hrows, hstored, pixelAt_foldl_storeFieldRow odd _ _ hi hx, hdecodedRows]
    cases hreceived : LineMap.find pi.slots i with
    | none => rfl
    | some payload =>
      refine foldl_decodeSlot_cacheOk pi.slots (pi := stepInterlace p odd pi) hcache i payload ?_ x hx
      rw [find_lastPayload_foldl p hslots, hreceived]
      rfl
  · rw [hrows, hstored, rows_not_foldl, hdecodedRows]
  · rw [hcount, hstoredCount, decodeCount_foldl p hslots]
    rfl
  · rw [hfind]
    cases LineMap.find pi.slots i <;> rfl

end Sys2Proof.Machine

/-! # The machine cycle and the demo tick (44_sync_commands.md R316, R317; 45_demo_log.md R331, R348, R349)

A tick at the end of its countdown dispatches the record at `play_pos`. Each dispatch stops playback or moves
`play_pos` on, so that the fuel of `playDue` is more than the loop can use (`playLoop_succ`). -/

namespace Sys2Proof.Machine

/-! ## The calls of a machine cycle -/

/-- A call of the environment touches of the synchronizer only what is seen of the shutdown. -/
theorem callEnv_sync (s : State) (c : EnvCall) : ∃ seen, (callEnv s c).sync = { s.sync with shutSeen := seen } := by
  cases c with
  | submitScanline i payload => exact (submitLine_run i payload s).sync
  | _ => exact ⟨_, rfl⟩

theorem foldl_callEnv_sync (calls : List EnvCall) (s : State) :
    ∃ seen, (calls.foldl callEnv s).sync = { s.sync with shutSeen := seen } := by
  induction calls generalizing s with
  | nil => exact ⟨_, rfl⟩
  | cons c calls ih =>
    obtain ⟨seen, hcall⟩ := callEnv_sync s c
    obtain ⟨seen', hcalls⟩ := ih (callEnv s c)
    exact ⟨seen', by rw [List.foldl_cons, hcalls, hcall]⟩

theorem mcPhase_foldl_callEnv (calls : List EnvCall) (s : State) :
    (calls.foldl callEnv s).sync.mcPhase = s.sync.mcPhase := by
  obtain ⟨seen, hsync⟩ := foldl_callEnv_sync calls s
  rw [hsync]

theorem machineCycle_of_phase_zero {s : State} (hphase : s.sync.mcPhase = 0) (calls : List EnvCall) :
    machineCycle calls s = (calls.foldl callEnv s).withSync { (calls.foldl callEnv s).sync with mcPhase := 1 } := by
  have hu := (mcPhase_foldl_callEnv calls s).trans hphase
  rw [machineCycle, envStep, if_neg (by rw [hu]; decide), hu]

theorem machineCycle_of_phase_one {s : State} (hphase : s.sync.mcPhase = 1) (calls : List EnvCall) :
    machineCycle calls s = demoTick (advance ((calls.foldl callEnv s).withSync
      { (calls.foldl callEnv s).sync with mcPhase := 0 })).1 := by
  have hu := (mcPhase_foldl_callEnv calls s).trans hphase
  rw [machineCycle, envStep, if_pos (by rw [hu]; decide)]

/-! ## How far a dispatch reads -/

theorem length_lt_of_varintGo {left d d' : Nat} {bs rest : Bytes} (h : varintGo left d bs = .ok (d', rest)) :
    rest.length < bs.length := by
  induction bs generalizing left d with
  | nil => cases left <;> cases h
  | cons b bs ih =>
    cases hb : b.getLsbD 7 with
    | false =>
      rw [varintGo_last hb] at h
      cases h
      exact Nat.lt_succ_self _
    | true =>
      cases left with
      | zero =>
        rw [varintGo_continuing_zero hb] at h
        cases h
      | succ left =>
        rw [varintGo_continuing_succ hb] at h
        exact (ih h).trans (Nat.lt_succ_self _)

theorem length_lt_of_varintDecode {d : Nat} {bs rest : Bytes} (h : varintDecode bs = .ok (d, rest)) :
    rest.length < bs.length := length_lt_of_varintGo h

theorem readEvent_of_length_lt {bs : Bytes} (hlength : bs.length < 2) : readEvent bs = none := by
  match bs, hlength with
  | [], _ => rfl
  | [_], _ => rfl

theorem readEvent_of_payload_lt (ty : Byte) {len : Byte} {rest : Bytes} (hlength : rest.length < len.toNat) :
    readEvent (ty :: len :: rest) = none := by
  rw [readEvent, takeBytes, if_neg (by omega)]

theorem length_lt_of_readEvent {bs payload rest : Bytes} {ty : Byte} (h : readEvent bs = some (ty, payload, rest)) :
    rest.length < bs.length := by
  match bs with
  | [] | [_] => cases h
  | ty' :: len :: t =>
    by_cases hlength : t.length < len.toNat
    · rw [readEvent_of_payload_lt ty' hlength] at h
      cases h
    · have htake : takeBytes len.toNat t = some (t.take len.toNat, t.drop len.toNat) := by
        rw [takeBytes, if_pos (by omega)]
      rw [readEvent, htake] at h
      cases h
      simp only [List.length_drop, List.length_cons]
      omega

/-- Behind `read` bytes of what stands at `pos`. -/
theorem sub_length_of_drop {buf bytes rest : Bytes} {pos read : Nat} (hdrop : buf.drop pos = bytes)
    (hlength : bytes.length = read + rest.length) (hread : 0 < read) : buf.length - rest.length = pos + read := by
  have hbytes := congrArg List.length hdrop
  rw [List.length_drop] at hbytes
  omega

/-! ## One dispatch (R348) -/

/-- The state an event is dispatched in: `play_pos` behind it. -/
def State.readTo (s : State) (rest : Bytes) : State :=
  s.withDemo { s.demo with playPos := s.demo.playBuf.length - rest.length }

theorem dispatchOne_of_none {s : State} (hread : readEvent (s.demo.playBuf.drop s.demo.playPos) = none) :
    dispatchOne s = stopPlayback (some .demoTruncated) s := by
  rw [dispatchOne, hread]

theorem dispatchOne_of_event {s : State} {ty : Byte} {payload rest : Bytes}
    (hread : readEvent (s.demo.playBuf.drop s.demo.playPos) = some (ty, payload, rest)) :
    dispatchOne s = if (dispatchEvent ty payload (s.readTo rest)).demo.mode = .playing then
        readDelta (dispatchEvent ty payload (s.readTo rest)).demo.playPos (dispatchEvent ty payload (s.readTo rest))
      else dispatchEvent ty payload (s.readTo rest) := by
  rw [dispatchOne, hread]
  rfl

/-- An event stops playback or changes the keys alone. -/
theorem dispatchEvent_cases (ty : Byte) (payload : Bytes) (s : State) :
    (∃ e, dispatchEvent ty payload s = stopPlayback e s) ∨ ∃ keys, dispatchEvent ty payload s = s.withKeys keys := by
  have hkey (down : Bool) :
      (∃ e, keyEvent down payload s = stopPlayback e s) ∨ ∃ keys, keyEvent down payload s = s.withKeys keys := by
    unfold keyEvent
    split
    · split
      · exact .inl ⟨_, rfl⟩
      · exact .inr ⟨_, rfl⟩
    · exact .inl ⟨_, rfl⟩
  unfold dispatchEvent
  split_ifs
  · exact .inl ⟨_, rfl⟩
  · exact hkey true
  · exact hkey false
  · exact .inl ⟨_, rfl⟩

/-- A delta that does not stop playback leaves fewer bytes to read. -/
theorem readDelta_progress {s : State} {pos : Nat} (hplay : (readDelta pos s).demo.mode = .playing) :
    (readDelta pos s).demo.playBuf.length - (readDelta pos s).demo.playPos < s.demo.playBuf.length - pos := by
  cases hdelta : varintDecode (s.demo.playBuf.drop pos) with
  | error e =>
    rw [readDelta_of_error hdelta] at hplay
    cases hplay
  | ok r =>
    obtain ⟨d, rest⟩ := r
    have hless := length_lt_of_varintDecode hdelta
    rw [List.length_drop] at hless
    rw [readDelta_of_ok hdelta]
    change s.demo.playBuf.length - (s.demo.playBuf.length - rest.length) < _
    omega

/-- A dispatch that does not stop playback leaves fewer bytes to read. -/
theorem dispatchOne_progress {s : State} (hplay : (dispatchOne s).demo.mode = .playing) :
    (dispatchOne s).demo.playBuf.length - (dispatchOne s).demo.playPos < s.demo.playBuf.length - s.demo.playPos := by
  cases hread : readEvent (s.demo.playBuf.drop s.demo.playPos) with
  | none =>
    rw [dispatchOne_of_none hread] at hplay
    cases hplay
  | some event =>
    obtain ⟨ty, payload, rest⟩ := event
    have hevent := length_lt_of_readEvent hread
    rw [List.length_drop] at hevent
    rw [dispatchOne_of_event hread] at hplay ⊢
    rcases dispatchEvent_cases ty payload (s.readTo rest) with ⟨e, h⟩ | ⟨keys, h⟩
    · rw [h, if_neg (mode_stopPlayback_ne _ _)] at hplay
      cases hplay
    · rw [h] at hplay ⊢
      split at hplay
      · next hmode =>
        rw [if_pos hmode]
        have hdelta := readDelta_progress hplay
        change _ < s.demo.playBuf.length - (s.demo.playBuf.length - rest.length) at hdelta
        omega
      · next hmode => exact absurd hplay hmode

theorem playLoop_of_due {s : State} (hdue : s.demo.mode = .playing ∧ s.demo.countdown = 0) (fuel : Nat) :
    playLoop (fuel + 1) s = playLoop fuel (dispatchOne s) := if_pos hdue

/-- With more fuel than bytes left to read, one more changes nothing. -/
theorem playLoop_succ {fuel : Nat} {s : State} (hfuel : s.demo.playBuf.length - s.demo.playPos < fuel) :
    playLoop (fuel + 1) s = playLoop fuel s := by
  induction fuel generalizing s with
  | zero => cases hfuel
  | succ fuel ih =>
    by_cases hdue : s.demo.mode = .playing ∧ s.demo.countdown = 0
    · rw [playLoop_of_due hdue, playLoop_of_due hdue]
      by_cases hplay : (dispatchOne s).demo.mode = .playing
      · exact ih (Nat.lt_of_lt_of_le (dispatchOne_progress hplay) (Nat.le_of_lt_succ hfuel))
      · rw [playLoop_of_not_playing hplay, playLoop_of_not_playing hplay]
    · rw [playLoop_of_not_due hdue, playLoop_of_not_due hdue]

/-! ## The tick (R331, R349) -/

theorem demoTick_of_playing {s : State} (hmode : s.demo.mode = .playing) : demoTick s = playTick s := by
  rw [demoTick, hmode]

/-- The state with the countdown used up. -/
def State.due (s : State) : State := s.withDemo { s.demo with countdown := 0 }

/-- At the end of the countdown a tick is a dispatch and what is due after it. -/
theorem demoTick_due {s : State} (hmode : s.demo.mode = .playing) (hcount : s.demo.countdown ≤ 1) :
    demoTick s = playLoop s.demo.playBuf.length (dispatchOne s.due) := by
  have hdue : s.withDemo { s.demo with countdown := s.demo.countdown - 1 } = s.due := by
    rw [State.due, Nat.sub_eq_zero_of_le hcount]
  rw [demoTick_of_playing hmode, playTick, hdue]
  exact if_pos ⟨hmode, rfl⟩

theorem demoTick_of_stop {s t : State} (hmode : s.demo.mode = .playing) (hcount : s.demo.countdown ≤ 1)
    {e : Option FaultCode} (hdispatch : dispatchOne s.due = stopPlayback e t) : demoTick s = stopPlayback e t := by
  rw [demoTick_due hmode hcount, hdispatch, playLoop_of_not_playing (mode_stopPlayback_ne e t)]

/-- A due event that stops playback. -/
theorem demoTick_of_stopping_event {s : State} (hmode : s.demo.mode = .playing) (hcount : s.demo.countdown ≤ 1)
    {ty : Byte} {payload rest : Bytes} {e : Option FaultCode}
    (hread : readEvent (s.demo.playBuf.drop s.demo.playPos) = some (ty, payload, rest))
    (hstop : dispatchEvent ty payload (s.due.readTo rest) = stopPlayback e (s.due.readTo rest)) :
    demoTick s = stopPlayback e (s.due.readTo rest) := by
  refine demoTick_of_stop hmode hcount ?_
  rw [dispatchOne_of_event (s := s.due) hread, hstop, if_neg (mode_stopPlayback_ne _ _)]

theorem dispatchEvent_unknown {ty : Byte} (hty : 3 ≤ ty.toNat) (payload : Bytes) (s : State) :
    dispatchEvent ty payload s = stopPlayback (some .unknownType) s := by
  have hne (b : Byte) (hb : b.toNat < 3) : ty ≠ b := fun h => absurd hty (by rw [h]; omega)
  rw [dispatchEvent, if_neg (hne _ (by decide)), if_neg (hne _ (by decide)), if_neg (hne _ (by decide))]
  rfl

theorem dispatchEvent_key (down : Bool) {k : Byte} (hk : k.toNat < 128) (s : State) :
    dispatchEvent (if down then 0x01#8 else 0x02#8) [k] s = s.withKeys (setKey s.keys (k.extractLsb' 0 7) down) := by
  cases down <;> exact keyEvent_of_lt _ hk s

/-- A due key event sets its key and reads the next delta. -/
theorem dispatchOne_key {s : State} (hmode : s.demo.mode = .playing) {down : Bool} {k : Byte} (hk : k.toNat < 128)
    {tail : Bytes}
    (hbytes : s.demo.playBuf.drop s.demo.playPos = [if down then 0x01#8 else 0x02#8, 0x01#8, k] ++ tail) :
    dispatchOne s = readDelta (s.demo.playPos + 3) ((s.withKeys (setKey s.keys (k.extractLsb' 0 7) down)).withDemo
      { s.demo with playPos := s.demo.playPos + 3 }) := by
  have hread : readEvent (s.demo.playBuf.drop s.demo.playPos) = some (if down then 0x01#8 else 0x02#8, [k], tail) := by
    rw [hbytes]
    exact readEvent_cons _ (payload := [k]) (Nat.one_lt_ofNat) tail
  have hpos : s.demo.playBuf.length - tail.length = s.demo.playPos + 3 :=
    sub_length_of_drop hbytes (by rw [List.length_append]; rfl) (by decide)
  have hreadTo : s.readTo tail = s.withDemo { s.demo with playPos := s.demo.playPos + 3 } := by
    rw [State.readTo, hpos]
  rw [dispatchOne_of_event hread, dispatchEvent_key down hk, hreadTo]
  exact if_pos hmode

/-- What a tick does at a due record that stops playback there, by the event read. -/
theorem demoTick_of_record {s : State} (hmode : s.demo.mode = .playing) (hcount : s.demo.countdown ≤ 1) {ty : Byte}
    {payload rest : Bytes} (hlength : payload.length < 256)
    (hbytes : s.demo.playBuf.drop s.demo.playPos = ty :: BitVec.ofNat 8 payload.length :: payload ++ rest)
    {e : Option FaultCode}
    (hstop : dispatchEvent ty payload (s.due.readTo rest) = stopPlayback e (s.due.readTo rest)) :
    demoTick s = { s with
      keys := 0
      demo := { s.demo with
        mode := .idle, countdown := 0, playPos := s.demo.playPos + (2 + payload.length), lastError := e } } := by
  have hread : readEvent (s.demo.playBuf.drop s.demo.playPos) = some (ty, payload, rest) := by
    rw [hbytes]
    exact readEvent_cons ty hlength rest
  have hpos : s.demo.playBuf.length - rest.length = s.demo.playPos + (2 + payload.length) :=
    sub_length_of_drop hbytes (by simp only [List.cons_append, List.length_cons, List.length_append]; omega) (by omega)
  rw [demoTick_of_stopping_event hmode hcount hread hstop, State.readTo,
    show s.due.demo.playBuf.length - rest.length = _ from hpos]
  rfl

theorem demoTick_of_cut {s : State} (hmode : s.demo.mode = .playing) (hcount : s.demo.countdown ≤ 1)
    (hread : readEvent (s.demo.playBuf.drop s.demo.playPos) = none) : demoTick s = { s with
      keys := 0
      demo := { s.demo with mode := .idle, countdown := 0, lastError := some .demoTruncated } } :=
  demoTick_of_stop hmode hcount (dispatchOne_of_none (s := s.due) hread)

/-- What is due when a delta of 0 has been read is what a tick of that state does. -/
theorem playLoop_eq_demoTick {s : State} (hmode : s.demo.mode = .playing) (hcount : s.demo.countdown = 0)
    (hread : s.demo.playBuf.length - s.demo.playPos < s.demo.playBuf.length) :
    playLoop s.demo.playBuf.length s = demoTick s := by
  have hdue : s.due = s := by rw [State.due, ← hcount]; rfl
  rw [demoTick_due hmode (by omega), hdue, ← playLoop_succ hread, playLoop_of_due ⟨hmode, hcount⟩]

/-- The state a due key event is dispatched to, in front of its next delta. -/
def State.keyed (down : Bool) (k : Byte) (s : State) : State :=
  (s.due.withKeys (setKey s.keys (k.extractLsb' 0 7) down)).withDemo { s.due.demo with playPos := s.demo.playPos + 3 }

/-- The delta behind a due key event. -/
theorem dispatchOne_due_key {s : State} (hmode : s.demo.mode = .playing) {down : Bool} {k : Byte} (hk : k.toNat < 128)
    {tail : Bytes}
    (hbytes : s.demo.playBuf.drop s.demo.playPos = [if down then 0x01#8 else 0x02#8, 0x01#8, k] ++ tail) :
    dispatchOne s.due = readDelta (s.demo.playPos + 3) (s.keyed down k) ∧
    (s.keyed down k).demo.playBuf.drop (s.demo.playPos + 3) = tail := by
  refine ⟨dispatchOne_key (s := s.due) hmode hk hbytes, ?_⟩
  change s.demo.playBuf.drop (s.demo.playPos + 3) = tail
  rw [← List.drop_drop, hbytes]
  rfl

/-- Settles O44: the calls and the cycle by their equations, the tick by the lemma of each record. -/
theorem machineCycleAndTick : Obligations.MachineCycleAndTick := by
  refine ⟨fun a v b i payload s hs => ?_, fun n env s => ⟨rfl, rfl⟩, fun calls s =>
    ⟨fun hphase => machineCycle_of_phase_zero hphase calls, fun hphase => machineCycle_of_phase_one hphase calls⟩,
    fun s => ⟨fun hmode => ?_, fun hmode => ?_, fun hmode hcount => ?_, ?_⟩⟩
  · have hcheck := (unlockedCheck_pass s).2 hs
    have haccess := (accessCheck_pass s).2 ⟨fun _ => hs.2, fun _ => hs.1⟩
    exact ⟨guardedUnit_pass (fun s => callEnv s (.writeRegister a v)) haccess,
      guardedUnit_pass (fun s => callEnv s (.setInt1State b)) hcheck,
      guardedUnit_pass (fun s => callEnv s (.setInt2State b)) hcheck,
      guardedUnit_pass (fun s => callEnv s (.setTapeInput b)) hcheck,
      guardedUnit_pass (fun s => callEnv s (.setTapeFeedback b)) hcheck,
      guardedUnit_pass (fun s => callEnv s (.submitScanline i payload)) hcheck,
      guardedUnit_pass (fun s => callEnv s (.notifyFieldSync b i)) hcheck,
      _, guarded_pass (fun s => (s, .byte (readReg s.par a s.chip s.keys))) haccess, rfl⟩
  · rw [demoTick, hmode]
  · rw [demoTick, hmode]
    rfl
  · have hleft : s.demo.countdown - 1 ≠ 0 := by omega
    rw [demoTick_of_playing hmode, playTick, playDue, playLoop_of_not_due fun hdue => hleft hdue.2]
    rfl
  intro hmode hcount bytes stopped
  refine ⟨fun down k tail hk hbytes => ⟨fun e hdelta => ?_, fun d delta rest htail hdelta => ?_⟩,
    fun ty payload rest hlength hbytes => ⟨fun hty => ?_, fun hty hbad => ?_, fun hty => ?_⟩, fun hcut => ?_⟩
  · obtain ⟨hdispatch, hdrop⟩ := dispatchOne_due_key hmode hk hbytes
    exact demoTick_of_stop hmode hcount (hdispatch.trans (readDelta_of_error (hdrop.symm ▸ hdelta)))
  · refine ⟨setKey s.keys (k.extractLsb' 0 7) down, fun j hj => ?_, ?_⟩
    · rw [getLsbD_setKey _ _ _ hj, toNat_extractLsb'_seven hk]
    intro u
    obtain ⟨hdispatch, hdrop⟩ := dispatchOne_due_key hmode hk hbytes
    have hpos : s.demo.playBuf.length - rest.length = s.demo.playPos + (3 + delta.length) :=
      sub_length_of_drop hbytes
        (by rw [htail]; simp only [List.length_append, List.length_cons, List.length_nil]; omega) (by omega)
    have hu : dispatchOne s.due = u := by
      rw [hdispatch, readDelta_of_ok (hdrop.symm ▸ hdelta),
        show (s.keyed down k).demo.playBuf.length - rest.length = _ from hpos, ← Nat.add_assoc]
      rfl
    rw [demoTick_due hmode hcount, hu]
    by_cases hd : d = 0
    · have hread : u.demo.playBuf.length - u.demo.playPos < u.demo.playBuf.length := by
        have hlength := congrArg List.length hbytes
        rw [List.length_drop, List.length_append] at hlength
        change s.demo.playBuf.length - (s.demo.playPos + 3 + delta.length) < s.demo.playBuf.length
        simp only [List.length_cons] at hlength
        omega
      rw [if_pos hd]
      exact playLoop_eq_demoTick (s := u) hmode hd hread
    · rw [if_neg hd]
      exact playLoop_of_not_due (s := u) (fun hdue => hd hdue.2) _
  · subst hty
    exact demoTick_of_record hmode hcount hlength hbytes rfl
  · refine demoTick_of_record hmode hcount hlength hbytes ?_
    rcases hty with rfl | rfl
    · exact keyEvent_of_malformed true hbad _
    · exact keyEvent_of_malformed false hbad _
  · refine demoTick_of_record hmode hcount hlength hbytes (e := some .unknownType) ?_
    exact dispatchEvent_unknown hty payload _
  · refine demoTick_of_cut hmode hcount ?_
    rcases hcut with hshort | ⟨ty, len, rest, hbytes, hlength⟩
    · exact readEvent_of_length_lt hshort
    · exact (congrArg readEvent hbytes).trans (readEvent_of_payload_lt ty hlength)

end Sys2Proof.Machine

/-! # Splitting a budget (44_sync_commands.md R315)

No machine cycle looks at the remainder or at what the last call returned: setting both (`State.parked`) commutes
with every operation of a cycle, so that two runs make the cycles of one. -/

namespace Sys2Proof.Machine

/-- The state with another remainder, and another call returned. -/
def State.parked (r : Result) (n : Nat) (s : State) : State :=
  { s with sync := { s.sync with cycleRem := n }, result := r }

/-- `f` does not look at the remainder or the result, and leaves both. -/
def KeepsParked (f : State → State) : Prop := ∀ r n s, f (State.parked r n s) = State.parked r n (f s)

theorem KeepsParked.comp {f g : State → State} (hf : KeepsParked f) (hg : KeepsParked g) :
    KeepsParked fun s => f (g s) := fun r n s => (congrArg f (hg r n s)).trans (hf r n (g s))

theorem KeepsParked.foldl {α : Type} {f : State → α → State} (h : ∀ a, KeepsParked fun s => f s a) (l : List α) :
    KeepsParked fun s => l.foldl f s := by
  intro r n s
  induction l generalizing s with
  | nil => rfl
  | cons a l ih =>
    exact (congrArg (l.foldl f) (h a r n s)).trans (ih (f s a))

/-! ## The demo tick -/

theorem keyEvent_keepsParked (down : Bool) (payload : Bytes) : KeepsParked (keyEvent down payload) := by
  intro r n s
  unfold keyEvent
  split
  · split <;> rfl
  · rfl

theorem dispatchEvent_keepsParked (ty : Byte) (payload : Bytes) : KeepsParked (dispatchEvent ty payload) := by
  intro r n s
  unfold dispatchEvent
  split_ifs
  · rfl
  · exact keyEvent_keepsParked true payload r n s
  · exact keyEvent_keepsParked false payload r n s
  · rfl

theorem readDelta_keepsParked (pos : Nat) : KeepsParked (readDelta pos) := by
  intro r n s
  cases hdelta : varintDecode (s.demo.playBuf.drop pos) with
  | error e => rw [readDelta_of_error hdelta, readDelta_of_error (s := State.parked r n s) hdelta]; rfl
  | ok p => rw [readDelta_of_ok hdelta, readDelta_of_ok (s := State.parked r n s) hdelta]; rfl

theorem dispatchOne_keepsParked : KeepsParked dispatchOne := by
  intro r n s
  cases hread : readEvent (s.demo.playBuf.drop s.demo.playPos) with
  | none => rw [dispatchOne_of_none hread, dispatchOne_of_none (s := State.parked r n s) hread]; rfl
  | some event =>
    obtain ⟨ty, payload, rest⟩ := event
    have hevent := dispatchEvent_keepsParked ty payload r n (s.readTo rest)
    rw [dispatchOne_of_event hread, dispatchOne_of_event (s := State.parked r n s) hread,
      show dispatchEvent ty payload ((State.parked r n s).readTo rest) = _ from hevent]
    by_cases hmode : (dispatchEvent ty payload (s.readTo rest)).demo.mode = .playing
    · rw [if_pos hmode, if_pos (by exact hmode)]
      exact readDelta_keepsParked _ r n _
    · rw [if_neg hmode, if_neg (by exact hmode)]

theorem playLoop_keepsParked (fuel : Nat) : KeepsParked (playLoop fuel) := by
  intro r n s
  induction fuel generalizing s with
  | zero => rfl
  | succ fuel ih =>
    by_cases hdue : s.demo.mode = .playing ∧ s.demo.countdown = 0
    · rw [playLoop_of_due hdue, playLoop_of_due (s := State.parked r n s) hdue, dispatchOne_keepsParked, ih]
    · rw [playLoop_of_not_due hdue, playLoop_of_not_due (s := State.parked r n s) hdue]

theorem demoTick_keepsParked : KeepsParked demoTick := by
  intro r n s
  cases hmode : s.demo.mode with
  | idle => simp only [demoTick, hmode, State.parked]
  | recording => simp only [demoTick, hmode, State.parked]; rfl
  | playing =>
    rw [demoTick_of_playing hmode, demoTick_of_playing (s := State.parked r n s) hmode]
    exact playLoop_keepsParked (s.demo.playBuf.length + 1) r n
      (s.withDemo { s.demo with countdown := s.demo.countdown - 1 })

/-! ## The environment's calls -/

theorem frameRound_keepsParked (left : Nat) : KeepsParked fun s => (frameRound left s).1 := by
  intro r n s
  have hround : frameRound left (State.parked r n s) =
      (State.parked r n (frameRound left s).1, (frameRound left s).2) := by
    rcases frameRound_cases left s with ⟨hready, h⟩ | ⟨hready, hshut, h⟩ | ⟨hready, hshut, hms, h⟩ |
        ⟨hready, hshut, hms, h⟩ <;> rw [h]
    · exact (if_pos hready).trans rfl
    · exact (if_neg (Nat.not_lt.2 (Nat.le_of_eq hready))).trans ((if_pos hshut).trans rfl)
    · exact (if_neg (Nat.not_lt.2 (Nat.le_of_eq hready))).trans ((if_neg (Bool.eq_false_iff.1 hshut)).trans
        ((if_pos hms).trans rfl))
    · exact (if_neg (Nat.not_lt.2 (Nat.le_of_eq hready))).trans ((if_neg (Bool.eq_false_iff.1 hshut)).trans
        ((if_neg (Nat.not_le_of_lt hms)).trans rfl))
  exact congrArg Prod.fst hround

theorem wakeFrame_of_waiting {s : State} {left : Nat} (hwait : s.pipe.waitLeft = some left) : wakeFrame s =
    if Config.draw s.draws = true then (frameRound left (s.withDraws (s.draws + 1))).1
    else s.withDraws (s.draws + 1) := by
  rw [wakeFrame, hwait]
  rfl

theorem wakeFrame_of_not_waiting {s : State} (hwait : s.pipe.waitLeft = none) : wakeFrame s = s := by
  rw [wakeFrame, hwait]

theorem wakeFrame_keepsParked : KeepsParked wakeFrame := by
  intro r n s
  cases hwait : s.pipe.waitLeft with
  | none => rw [wakeFrame_of_not_waiting hwait, wakeFrame_of_not_waiting (s := State.parked r n s) hwait]
  | some left =>
    rw [wakeFrame_of_waiting hwait, wakeFrame_of_waiting (s := State.parked r n s) hwait]
    by_cases hdraw : Config.draw s.draws = true
    · rw [if_pos hdraw, if_pos (by exact hdraw)]
      exact frameRound_keepsParked left r n (s.withDraws (s.draws + 1))
    · rw [if_neg hdraw, if_neg (by exact hdraw)]
      rfl

theorem appendEvent_keepsParked (q : List Event) : KeepsParked (appendEvent q) := fun r n s =>
  wakeFrame_keepsParked r n (machineQueueOp (s.withPipe { s.pipe with evq := q }))

theorem completeField_keepsParked : KeepsParked completeField := by
  intro r n s
  unfold completeField
  by_cases hcomplete : fieldComplete s.par s.pipe = true
  · rw [if_pos (by exact hcomplete), if_pos hcomplete]
    exact appendEvent_keepsParked (boundEvq s.par (s.pipe.evq ++ [.frameDone s.pipe.oddPending])) r n
      (s.withPipe { s.pipe with vsyncCnt := 0 })
  · rw [if_neg (by exact hcomplete), if_neg hcomplete]

theorem submitLine_keepsParked (i : Nat) (payload : Bytes) : KeepsParked (submitLine i payload) := by
  intro r n s
  rcases Nat.lt_or_ge i s.par.slots with hi | hi
  · rw [submitLine_of_lt hi, submitLine_of_lt (s := State.parked r n s) hi]
    have happend := appendEvent_keepsParked (supersede i s.pipe.evq ++ [.line i payload]) r n s
    rw [show appendEvent (supersede i (State.parked r n s).pipe.evq ++ [.line i payload]) (State.parked r n s) = _
      from happend]
    exact completeField_keepsParked r n (countedLine _)
  · rw [submitLine, submitLine, if_pos (by exact hi), if_pos hi]

theorem callEnv_keepsParked (c : EnvCall) : KeepsParked fun s => callEnv s c := by
  intro r n s
  cases c with
  | submitScanline i payload => exact submitLine_keepsParked i payload r n s
  | _ => rfl

/-! ## The cycles -/

theorem advance_keepsParked : KeepsParked fun s => (advance s).1 := fun _ _ _ => rfl

theorem machineCycle_keepsParked (calls : List EnvCall) : KeepsParked (machineCycle calls) := by
  intro r n s
  have hcalls : calls.foldl callEnv (State.parked r n s) = State.parked r n (calls.foldl callEnv s) :=
    KeepsParked.foldl callEnv_keepsParked calls r n s
  unfold machineCycle envStep
  rw [hcalls]
  generalize calls.foldl callEnv s = u
  dsimp only
  by_cases hphase : u.sync.mcPhase + 1 = Config.mcPerChip
  · rw [if_pos (by exact hphase), if_pos hphase]
    exact (KeepsParked.comp demoTick_keepsParked advance_keepsParked) r n (u.withSync { u.sync with mcPhase := 0 })
  · rw [if_neg (by exact hphase), if_neg hphase]
    rfl

theorem machineCycles_keepsParked (k : Nat) (env : List (List EnvCall)) : KeepsParked (machineCycles k env) := by
  intro r n s
  induction k generalizing env s with
  | zero => rfl
  | succ k ih => exact (congrArg (machineCycles k env.tail) (machineCycle_keepsParked _ r n s)).trans (ih _ _)

/-- Two lots of cycles are one, the calls shared out in order. -/
theorem machineCycles_add (k m : Nat) (env : List (List EnvCall)) (s : State) :
    machineCycles (k + m) env s = machineCycles m (env.drop k) (machineCycles k env s) := by
  induction k generalizing env s with
  | zero => rw [Nat.zero_add]; rfl
  | succ k ih =>
    rw [Nat.succ_add]
    refine (ih env.tail _).trans ?_
    rw [List.drop_tail]
    rfl

/-- The cycles use no more lists of calls than there are cycles. -/
theorem machineCycles_take (k : Nat) (env : List (List EnvCall)) (s : State) :
    machineCycles k (env.take k) s = machineCycles k env s := by
  induction k generalizing env s with
  | zero => rfl
  | succ k ih =>
    cases env with
    | nil => rw [List.take_nil]
    | cons calls env => exact ih env _

/-- What the cycles leave of the state's control: who calls, and the synchronizer but the phase and the sight of the
shutdown. -/
def State.control (s : State) : Params × Agent × List Command × Bool × Bool × Bool × Nat :=
  (s.par, s.caller, s.sync.cmdq, s.sync.shutdown, s.sync.paused, s.sync.lockHeld, s.sync.cycleRem)

theorem callEnv_control (s : State) (c : EnvCall) : (callEnv s c).control = s.control := by
  cases c with
  | submitScanline i payload =>
    have hrun := submitLine_run i payload s
    obtain ⟨seen, hsync⟩ := hrun.sync
    simp only [State.control, callEnv, hrun.par, hrun.caller, hsync]
  | _ => rfl

theorem demoTick_control (s : State) : (demoTick s).control = s.control := by
  obtain ⟨hpar, hcaller, -, -, hsync, -⟩ := (State.core_eq_iff _ _).1 (demoTick_core s)
  simp only [State.control, hpar, hcaller, hsync]

theorem advance_control (s : State) : (advance s).1.control = s.control := by
  unfold advance
  generalize chipCycle s.par s.chip = r
  rfl

theorem machineCycle_control (calls : List EnvCall) (s : State) : (machineCycle calls s).control = s.control := by
  have hcalls : (calls.foldl callEnv s).control = s.control := by
    induction calls generalizing s with
    | nil => rfl
    | cons c calls ih => exact (ih (callEnv s c)).trans (callEnv_control s c)
  rw [← hcalls]
  unfold machineCycle envStep
  generalize calls.foldl callEnv s = u
  dsimp only
  split
  · rw [demoTick_control, advance_control]
    rfl
  · rfl

theorem machineCycles_control (k : Nat) (env : List (List EnvCall)) (s : State) :
    (machineCycles k env s).control = s.control := by
  induction k generalizing env s with
  | zero => rfl
  | succ k ih => exact (ih _ _).trans (machineCycle_control _ s)

/-! ## The budget (R314, R315) -/

/-- Where nothing is queued or paused a run is the cycles of its budget. -/
theorem exec_runFor_of_idle {s : State} (hs : s.MachineFree) (hshut : s.sync.shutdown = false)
    (hpaused : s.sync.paused = false) (hcmdq : s.sync.cmdq = []) (us : Nat) (env : List (List EnvCall)) :
    exec (.runFor us env) s = .next (State.parked .unit (budgetTotal us s % 1000000)
      (machineCycles (budgetTotal us s / 1000000) env s)) := by
  have hsame : ({ s with sync := { s.sync with cmdq := [] } } : State) = s := by rw [← hcmdq]
  have hrun : runFor us env s = machineCycles (budgetTotal us s / 1000000) env
      (State.parked s.result (budgetTotal us s % 1000000) s) := by
    rw [runFor_of_no_shutdown hs.2 hshut, hcmdq, List.foldl_nil, hsame, runBudget, if_neg (by rw [hpaused]; decide)]
    rfl
  rw [exec_runFor hs.1, hrun, machineCycles_keepsParked]
  rfl

/-- Settles O45: both sides are the same cycles of `s`, parked. -/
theorem budgetSplit : Obligations.BudgetSplit := by
  intro us us' env s hshut hs hpaused hcmdq n
  have hfirst := exec_runFor_of_idle hs hshut hpaused hcmdq us (env.take n)
  have hboth := exec_runFor_of_idle hs hshut hpaused hcmdq (us + us') env
  have hcontrol := machineCycles_control n env s
  simp only [State.control, Prod.mk.injEq] at hcontrol
  obtain ⟨hpar, hcaller, hqueue, hshutdown, hpause, hlock, -⟩ := hcontrol
  rw [show budgetTotal us s / 1000000 = n from rfl, machineCycles_take] at hfirst
  refine ⟨_, hfirst, ?_⟩
  have hsecond := exec_runFor_of_idle (s := State.parked .unit (budgetTotal us s % 1000000) (machineCycles n env s))
    ⟨hcaller.trans hs.1, hlock.trans hs.2⟩ (hshutdown.trans hshut) (hpause.trans hpaused) (hqueue.trans hcmdq) us'
    (env.drop n)
  have hleft : budgetTotal us' (State.parked .unit (budgetTotal us s % 1000000) (machineCycles n env s)) =
      us' * s.par.machineHz + budgetTotal us s % 1000000 := by
    rw [budgetTotal, show (State.parked .unit (budgetTotal us s % 1000000) (machineCycles n env s)).par = _ from hpar]
    rfl
  have hsum : budgetTotal (us + us') s = budgetTotal us s + us' * s.par.machineHz := by
    simp only [budgetTotal, Nat.add_mul]
    omega
  have hcycles : budgetTotal (us + us') s / 1000000 =
      n + (us' * s.par.machineHz + budgetTotal us s % 1000000) / 1000000 := by
    rw [hsum, show n = budgetTotal us s / 1000000 from rfl]
    omega
  have hrem : budgetTotal (us + us') s % 1000000 =
      (us' * s.par.machineHz + budgetTotal us s % 1000000) % 1000000 := by
    rw [hsum]
    omega
  rw [hsecond, hboth, hleft, machineCycles_keepsParked, hcycles, hrem, machineCycles_add]
  rfl

end Sys2Proof.Machine

/-! # The step and the port (logs 1, 4, 5 and 13)

What an item decodes to has the item's format (`format_of_decode`), which decides what is still read of it. -/

namespace Sys2Proof.Machine

/-! ## What is decoded has the format it was decoded in -/

/-- Whatever `o` gives is an instruction of format `f`. -/
def FormatIs (f : Format) (o : Option (Instr × Bytes)) : Prop := ∀ i rest, o = some (i, rest) → i.format = f

theorem FormatIs.none (f : Format) : FormatIs f none := nofun

theorem FormatIs.some {f : Format} {i : Instr} {rest : Bytes} (h : i.format = f) : FormatIs f (some (i, rest)) := by
  rintro _ _ ⟨⟩
  exact h

theorem FormatIs.map {α : Type} {f : Format} {o : Option α} {g : α → Instr × Bytes} (h : ∀ a, (g a).1.format = f) :
    FormatIs f (o.map g) := by
  intro i rest hmap
  obtain ⟨a, -, ha⟩ := Option.map_eq_some_iff.1 hmap
  have hformat := h a
  rwa [ha] at hformat

theorem FormatIs.bind {α : Type} {f : Format} {o : Option α} {g : α → Option (Instr × Bytes)}
    (h : ∀ a, FormatIs f (g a)) : FormatIs f (o.bind g) := by
  intro i rest hbind
  obtain ⟨a, -, ha⟩ := Option.bind_eq_some_iff.1 hbind
  exact h a i rest ha

theorem FormatIs.ite {f : Format} {c : Prop} [Decidable c] {o o' : Option (Instr × Bytes)} (h : FormatIs f o)
    (h' : FormatIs f o') : FormatIs f (if c then o else o') := by
  split
  · exact h
  · exact h'

theorem decodeTag_formatIs (bs : Bytes) : FormatIs .scanlineTag (decodeTag bs) := by
  unfold decodeTag
  split
  · exact .none _
  refine .ite (.some rfl) (.ite ?_ (.ite ?_ (.ite ?_ (.ite ?_ (.ite ?_ (.ite ?_ (.some rfl)))))))
  all_goals
    split
    · exact .some rfl
    · exact .none _

theorem decodeDemo_formatIs (bs : Bytes) : FormatIs .demoRecord (decodeDemo bs) := by
  have hrecord (delta : BitVec 63) (ty : Byte) (payload : Bytes) :
      (demoRecord delta ty payload).format = .demoRecord := by
    unfold demoRecord
    split_ifs <;> rfl
  unfold decodeDemo
  split
  · exact .none _
  · split
    · exact .none _
    · exact .some (hrecord _ _ _)

theorem decodeChunk_formatIs (bs : Bytes) : FormatIs .snapshotChunk (decodeChunk bs) := by
  refine .bind fun (tag, _) => .bind fun (n, _) => ?_
  dsimp only
  split
  · exact .some rfl
  refine .bind fun (payload, _) => .bind fun (crc, _) => ?_
  dsimp only
  split_ifs <;> exact .some rfl

theorem decodeCall_formatIs (bs : Bytes) : FormatIs .interface (decodeCall bs) := by
  unfold decodeCall
  split
  · exact .none _
  refine .ite (.some rfl) ?_
  refine .ite (.bind fun _ => .bind fun _ => .some rfl) ?_
  refine .ite (.map fun _ => rfl) (.ite (.map fun _ => rfl) (.ite (.map fun _ => rfl) ?_))
  refine .ite (.map fun _ => rfl) (.ite (.map fun _ => rfl) ?_)
  refine .ite (.bind fun _ => .bind fun _ => .some rfl) ?_
  refine .ite (.bind fun _ => .bind fun _ => .some rfl) ?_
  refine .ite (.some rfl) (.ite (.some rfl) ?_)
  refine .ite (.bind fun _ => .bind fun _ => .bind fun _ => .bind fun _ => .some rfl) ?_
  refine .ite (.map fun _ => rfl) ?_
  refine .ite (.bind fun _ => .bind fun _ => .some rfl) ?_
  refine .ite (.map fun _ => rfl) ?_
  refine .ite (.some rfl) (.ite (.some rfl) (.ite (.some rfl) ?_))
  exact .ite (.map fun _ => rfl) (.ite (.some rfl) (.none _))

/-- Every decoded instruction is of the format it was decoded in. -/
theorem format_of_decode {p : Params} {f : Format} {bs rest : Bytes} {i : Instr}
    (h : decode p f bs = some (i, rest)) : i.format = f := by
  suffices hformat : FormatIs f (decode p f bs) from hformat i rest h
  cases f with
  | regWrite =>
    match bs with
    | [] | [_] => exact .none _
    | addr :: v :: r =>
      obtain ⟨j, _, hrow⟩ := exists_writeRow p addr v
      have hj : j.format = .regWrite := by cases hrow <;> rfl
      exact .some (hrow.decode_eq ▸ hj)
  | regRead =>
    match bs with
    | [] => exact .none _
    | addr :: r =>
      obtain ⟨j, _, hrow⟩ := exists_readRow (State.construct p) addr
      have hj : j.format = .regRead := by cases hrow <;> rfl
      exact .some (hrow.decode_eq ▸ hj)
  | scanlineTag => exact decodeTag_formatIs bs
  | demoRecord => exact decodeDemo_formatIs bs
  | snapshotChunk => exact decodeChunk_formatIs bs
  | command => exact .map fun (c, _) => by cases c <;> rfl
  | interface => exact decodeCall_formatIs bs

/-! ## What a step reads from -/

/-- The state in which an item's instruction runs, the rest of the item apart. -/
def State.opened (it : Item) (later : List Item) (s : State) : State := { s with
  caller := it.caller
  input := later
  dec := if it.first = true ∧ it.fmt = .scanlineTag then ⟨List.replicate s.par.outW 0#8, 0, false⟩ else s.dec
  loader := if it.first = true ∧ it.fmt = .snapshotChunk then ⟨none, none, .running⟩ else s.loader }

theorem opened_eq (it : Item) (later : List Item) (s : State) :
    s.opened it later = ((openItem it s).withInput later).withCaller it.caller := by
  unfold State.opened
  rcases openItem_cases it s with ⟨hfirst, hfmt, h⟩ | ⟨hfirst, hfmt, h⟩ | ⟨hother, h⟩ <;> rw [h]
  · have hloader : ¬(it.first = true ∧ it.fmt = .snapshotChunk) := by simp [hfmt]
    rw [if_neg hloader, if_pos ⟨hfirst, hfmt⟩]
    rfl
  · have hdec : ¬(it.first = true ∧ it.fmt = .scanlineTag) := by simp [hfmt]
    rw [if_neg hdec, if_pos ⟨hfirst, hfmt⟩]
    rfl
  · have hdec : ¬(it.first = true ∧ it.fmt = .scanlineTag) := fun h => hother ⟨h.1, .inl h.2⟩
    have hloader : ¬(it.first = true ∧ it.fmt = .snapshotChunk) := fun h => hother ⟨h.1, .inr h.2⟩
    rw [if_neg hdec, if_neg hloader]
    rfl

theorem portAfter_eq (it : Item) (rest : Bytes) (later : List Item) : portAfter it rest later =
    if rest = [] then later else ⟨it.caller, it.fmt, false, rest⟩ :: later := by
  cases rest <;> rfl

theorem fetched_eq (it : Item) (rest : Bytes) (later : List Item) (s : State) : fetched it rest later s =
    { s.opened it later with
      input := if rest = [] then later else ⟨it.caller, it.fmt, false, rest⟩ :: later } := by
  rw [opened_eq, ← portAfter_eq]
  rfl

/-- What is still read of an item does not depend on the port or the caller. -/
theorem leftover_opened (i : Instr) (rest : Bytes) (it : Item) (later : List Item) (s : State) :
    leftover i rest (s.opened it later) = leftover i rest (openItem it s) := by
  rw [opened_eq]
  rfl

theorem step_of_decode {s : State} (hvalid : s.par.valid = true) {it : Item} {later : List Item}
    (hinput : s.input = it :: later) {i : Instr} {rest : Bytes}
    (hdecode : decode s.par it.fmt it.bytes = some (i, rest)) :
    step s = exec i { s.opened it later with
      input := if leftover i rest (s.opened it later) = [] then later
        else ⟨it.caller, it.fmt, false, leftover i rest (s.opened it later)⟩ :: later } := by
  rw [← fetched_eq, leftover_opened, step, if_pos hvalid, hinput]
  simp only [hdecode]

theorem step_of_cut {s : State} (hvalid : s.par.valid = true) {it : Item} {later : List Item}
    (hinput : s.input = it :: later) (hdecode : decode s.par it.fmt it.bytes = none) :
    step s = cutShort it (s.opened it later) := by
  have hfetched : fetched it [] later s = s.opened it later := fetched_eq it [] later s
  rw [← hfetched, step, if_pos hvalid, hinput]
  simp only [hdecode]

/-! ## What is left of an item -/

theorem leftover_scanlineTag {i : Instr} (hi : i.format = .scanlineTag) (rest : Bytes) (s : State) :
    leftover i rest s =
      if (tagStep s.par i s.dec).stopped = true ∨ s.par.outW ≤ (tagStep s.par i s.dec).x then [] else rest := by
  rw [leftover, hi]
  simp only [LineDec.finished_iff]

theorem leftover_snapshotChunk {i : Instr} (hi : i.format = .snapshotChunk) (rest : Bytes) (s : State) :
    leftover i rest s = if (chunkStep i s.loader).status = .running then rest else [] := by
  rw [leftover, hi]

theorem leftover_call {i : Instr}
    (hi : i.format = .regWrite ∨ i.format = .regRead ∨ i.format = .command ∨ i.format = .interface) (rest : Bytes)
    (s : State) : leftover i rest s = rest := by
  rw [leftover]
  rcases hi with hi | hi | hi | hi <;> rw [hi]

/-- A key event ends its log exactly where it is malformed (R338 to R340). -/
theorem leftover_key {i : Instr} {d : BitVec 63} {payload : Bytes}
    (hi : i = .demoKeyDown d payload ∨ i = .demoKeyUp d payload) (rest : Bytes) (s : State) :
    ((∀ k, payload = [k] → 128 ≤ k.toNat) → leftover i rest s = []) ∧
    ∀ k, payload = [k] → k.toNat < 128 → leftover i rest s = rest := by
  have hleft : leftover i rest s = if endsLog (.demoKeyDown d payload) then [] else rest := by
    rcases hi with rfl | rfl <;> rfl
  rw [hleft]
  refine ⟨fun hbad => if_pos ?_, fun k hk hlt => if_neg ?_⟩
  · match payload with
    | [] => rfl
    | [k] => exact (getLsbD_seven_iff k).2 (hbad k rfl)
    | _ :: _ :: _ => rfl
  · rw [hk]
    exact fun hends => absurd ((getLsbD_seven_iff k).1 hends) (Nat.not_le.2 hlt)

/-- Settles O51: the step by `step_of_decode` and `step_of_cut`, what is left of the item by its format. -/
theorem stepRunsDecoded : Obligations.StepRunsDecoded := by
  intro s hvalid
  refine ⟨fun hinput => by rw [step, if_pos hvalid, hinput], fun it later hinput => ?_⟩
  intro opened
  refine ⟨fun i rest hdecode => ?_, fun hdecode => ?_⟩
  · have hformat := format_of_decode hdecode
    exact ⟨step_of_decode hvalid hinput hdecode,
      fun hfmt => leftover_scanlineTag (hformat.trans hfmt) rest opened,
      fun hfmt => leftover_snapshotChunk (hformat.trans hfmt) rest opened,
      fun d ty payload => ⟨fun hi => by rcases hi with rfl | rfl <;> rfl, fun hi => leftover_key hi rest opened⟩,
      fun hfmt => leftover_call (hformat ▸ hfmt) rest opened⟩
  · have hstep : step s = cutShort it opened := step_of_cut hvalid hinput hdecode
    refine ⟨fun hfmt => ?_, fun hfmt hfree e he => ?_, fun hfmt => ?_, fun hfmt => ?_⟩
    · rw [hstep, cutShort, hfmt]
      have hends : endOfData opened.par opened.dec = if opened.dec.stopped = true ∨ s.par.outW ≤ opened.dec.x then
          opened.dec else { opened.dec with stopped := true } := by
        simp only [endOfData, LineDec.finished_iff]
        rfl
      rw [← hends]
      rfl
    · rw [he]
      have hcut : cutShort it opened =
          guardedUnit unlockedCheck opened (stopPlayback (some (recordError it.bytes))) := by
        rw [cutShort, hfmt]
      exact (hstep.trans hcut).trans (guardedUnit_pass _ ((unlockedCheck_pass opened).2 hfree))
    · rw [hstep, cutShort, hfmt]
      rfl
    · rw [hstep, cutShort]
      rcases hfmt with hfmt | hfmt | hfmt | hfmt <;> rw [hfmt]

end Sys2Proof.Machine

/-! # The state after reset (70_reset_and_hazards.md R421 to R424) -/

namespace Sys2Proof.Machine

theorem machineFree_reset : State.reset.MachineFree := ⟨rfl, rfl⟩

/-- Every invariant of a step holds after reset: the planes, the maps and the queue are empty. -/
theorem invariants_reset : State.reset.pipe.PlanesWf ∧ State.reset.chip.Ranges ∧ State.reset.Bounds ∧
    QueueOk State.reset.par State.reset.pipe.evq ∧ State.reset.pipe.CacheOk State.reset.par :=
  ⟨reset_memory_wf, by decide,
    ⟨by decide, List.length_replicate, by decide, nofun, List.Pairwise.nil, List.Pairwise.nil⟩, queueOk_nil _, nofun⟩

/-- R423: the chip after the first cycle, and its sample. -/
theorem chipCycle_reset :
    (chipCycle {} Chip.reset).2 = (0, 0) ∧ (chipCycle {} Chip.reset).1.phase = Tri.all 0 ∧
    (chipCycle {} Chip.reset).1.osc = Tri.all true ∧ (chipCycle {} Chip.reset).1.raw = Quad.all true ∧
    (chipCycle {} Chip.reset).1.fixOsc = true ∧ (chipCycle {} Chip.reset).1.intState = ⟨true, true, false, false⟩ ∧
    (chipCycle {} Chip.reset).1.intActive = Quad.all false ∧ (chipCycle {} Chip.reset).1.out = Quad.all true := by
  decide

/-- Settles O59: the tables by definition, the registers as reads of the reset chip, the cycle by `chipCycle_reset`. -/
theorem resetState : Obligations.ResetState := by
  have haccess := (Or.inl machineFree_reset : State.reset.MayAccess)
  obtain ⟨hsample, hphase, hosc, hraw, hfix, hstate, hactive, hout⟩ := chipCycle_reset
  refine ⟨fun p => ⟨rfl, rfl, rfl, rfl, rfl, rfl⟩, rfl, invariants_reset, rfl, rfl, by decide,
    regRead_next _ haccess, regRead_next _ haccess, regRead_next _ haccess, _, exec_advanceOneCycle machineFree_reset,
    ?_, hphase, hosc, hraw, hfix, hstate, hactive, hout⟩
  exact congrArg (fun r : Half × Half => Result.sample r.1 r.2) hsample

end Sys2Proof.Machine
